-- ==== Sys2Proof/Word.lean ====
section
/-! DEFINITION. The word types of CRISP-32: a byte is 8 bits and a word 32 bits (00_scope.md R6, 10_state.md R20). -/

namespace Sys2Proof

/-- One byte: the smallest addressable unit (10_state.md R38). -/
abbrev Byte := BitVec 8

/-- A register, address or immediate: XLEN = 32 bits (00_scope.md R6). `signed_32` of R8 is `BitVec.toInt`. -/
abbrev Word := BitVec 32

end Sys2Proof
end

