-- ==== Sys2Proof/Syntax.lean ====
section
/-! DEFINITION. The instructions of CRISP-32: one constructor per row of the opcode map (30_encoding.md R96), operands in
the order of its syntax column. A field the row leaves unused has no operand (R92). -/

namespace Sys2Proof

/-- The number of a general register R0 to R31 (10_state.md R21). -/
abbrev Reg := Fin 32

/-- The 62 instructions of 30_encoding.md R96. Immediates, offsets, targets and codes are the whole 32-bit field (R95). -/
inductive Instr where
  -- System operations without operands
  | nop
  -- Arithmetic (40_arithmetic.md)
  | add (rd rs rt : Reg)
  | addu (rd rs rt : Reg)
  | sub (rd rs rt : Reg)
  | subu (rd rs rt : Reg)
  | addi (rt rs : Reg) (imm : Word)
  | addiu (rt rs : Reg) (imm : Word)
  -- Logical (41_logical.md)
  | and (rd rs rt : Reg)
  | or (rd rs rt : Reg)
  | xor (rd rs rt : Reg)
  | nor (rd rs rt : Reg)
  | andi (rt rs : Reg) (imm : Word)
  | ori (rt rs : Reg) (imm : Word)
  | xori (rt rs : Reg) (imm : Word)
  | lui (rt : Reg) (imm : Word)
  -- Shift (42_shift.md): the value register rt comes before the amount
  | sll (rd rt : Reg) (amount : Word)
  | srl (rd rt : Reg) (amount : Word)
  | sra (rd rt : Reg) (amount : Word)
  | sllv (rd rt rs : Reg)
  | srlv (rd rt rs : Reg)
  | srav (rd rt rs : Reg)
  -- Comparison (43_compare.md)
  | slt (rd rs rt : Reg)
  | sltu (rd rs rt : Reg)
  | slti (rt rs : Reg) (imm : Word)
  | sltiu (rt rs : Reg) (imm : Word)
  -- Multiplication and division (44_muldiv.md)
  | mul (rd rs rt : Reg)
  | mulh (rd rs rt : Reg)
  | mulhu (rd rs rt : Reg)
  | div (rd rs rt : Reg)
  | divu (rd rs rt : Reg)
  | rem (rd rs rt : Reg)
  | remu (rd rs rt : Reg)
  -- Load (45_load.md): rt, offset(rs)
  | lw (rt : Reg) (offset : Word) (rs : Reg)
  | lh (rt : Reg) (offset : Word) (rs : Reg)
  | lhu (rt : Reg) (offset : Word) (rs : Reg)
  | lb (rt : Reg) (offset : Word) (rs : Reg)
  | lbu (rt : Reg) (offset : Word) (rs : Reg)
  -- Store (46_store.md): rt, offset(rs)
  | sw (rt : Reg) (offset : Word) (rs : Reg)
  | sh (rt : Reg) (offset : Word) (rs : Reg)
  | sb (rt : Reg) (offset : Word) (rs : Reg)
  -- Branch (47_branch.md)
  | beq (rs rt : Reg) (offset : Word)
  | bne (rs rt : Reg) (offset : Word)
  | blez (rs : Reg) (offset : Word)
  | bgtz (rs : Reg) (offset : Word)
  | bltz (rs : Reg) (offset : Word)
  | bgez (rs : Reg) (offset : Word)
  -- Jump (48_jump.md)
  | j (target : Word)
  | jal (target : Word)
  | jr (rs : Reg)
  | jalr (rd rs : Reg)
  -- System, interrupt control, privilege and MMU control (49_system.md)
  | syscall (code : Word)
  | brk (code : Word)
  | ei
  | di
  | iret
  | raise (intNum : Word)
  | getpc (rd : Reg)
  | enablePaging
  | disablePaging
  | setPtbr (rd rt : Reg)
  | enterUser
  | getmode (rd : Reg)
  deriving DecidableEq, Repr

end Sys2Proof
end

