-- ==== Sys2Proof/WellFormed.lean ====
section
/-! DEFINITION. Which instructions the spec gives a meaning: all but the two operand combinations that it refuses
(48_jump.md R203, 49_system.md R216). A register number is in range by its type (30_encoding.md R93). -/

namespace Sys2Proof

/-- The operands are ones the spec gives a meaning: JALR names two different registers (R203, D21), RAISE a number of
0 to 255 (R216, D22). -/
def Instr.wellFormed : Instr → Bool
  | .jalr rd rs => rd != rs
  | .raise n => n.toNat < 256
  | .nop | .ei | .di | .iret | .enablePaging | .disablePaging | .enterUser => true
  | .add _ _ _ | .addu _ _ _ | .sub _ _ _ | .subu _ _ _ | .addi _ _ _ | .addiu _ _ _ => true
  | .and _ _ _ | .or _ _ _ | .xor _ _ _ | .nor _ _ _ | .andi _ _ _ | .ori _ _ _ | .xori _ _ _ | .lui _ _ => true
  | .sll _ _ _ | .srl _ _ _ | .sra _ _ _ | .sllv _ _ _ | .srlv _ _ _ | .srav _ _ _ => true
  | .slt _ _ _ | .sltu _ _ _ | .slti _ _ _ | .sltiu _ _ _ => true
  | .mul _ _ _ | .mulh _ _ _ | .mulhu _ _ _ | .div _ _ _ | .divu _ _ _ | .rem _ _ _ | .remu _ _ _ => true
  | .lw _ _ _ | .lh _ _ _ | .lhu _ _ _ | .lb _ _ _ | .lbu _ _ _ | .sw _ _ _ | .sh _ _ _ | .sb _ _ _ => true
  | .beq _ _ _ | .bne _ _ _ | .blez _ _ | .bgtz _ _ | .bltz _ _ | .bgez _ _ => true
  | .j _ | .jal _ | .jr _ => true
  | .syscall _ | .brk _ | .getpc _ | .setPtbr _ _ | .getmode _ => true

end Sys2Proof
end

