-- ==== Sys2Proof/Decode.lean ====
section
/-! DEFINITION. Decoding and encoding of the one 8-byte format (30_encoding.md R90 to R97): total on any bytes, refusing
by name. The opcode byte alone selects the instruction; unused fields are ignored (R92, D5). -/

namespace Sys2Proof

/-- The five fields of an instruction (30_encoding.md R90): B0, B1, B2, B3 and the little-endian immediate B4 to B7. -/
structure Fields where
  opcode : Byte
  rs : Byte
  rt : Byte
  rd : Byte
  imm : Word
  deriving DecidableEq, Repr

/-- Why eight bytes are no instruction. -/
inductive Reject where
  /-- Not eight bytes: an instruction has one length (30_encoding.md R94). The machine's fetch never gives this. -/
  | length
  /-- One of the 194 reserved opcodes: an illegal instruction, interrupt 1 (30_encoding.md R97). -/
  | reservedOpcode (opcode : Byte)
  /-- A used register field holds 32 to 255: the spec gives it no meaning (30_encoding.md R93). -/
  | registerField (opcode field : Byte)
  deriving DecidableEq, Repr

/-- `imm = B4 + B5*2^8 + B6*2^16 + B7*2^24` (30_encoding.md R90). -/
def immOfBytes (b4 b5 b6 b7 : Byte) : Word := b7 ++ b6 ++ b5 ++ b4

/-- The fields of the eight bytes of an instruction in memory order (30_encoding.md R90). -/
def Fields.ofBytes : List Byte → Option Fields
  | [b0, b1, b2, b3, b4, b5, b6, b7] => some ⟨b0, b1, b2, b3, immOfBytes b4 b5 b6 b7⟩
  | _ => none

/-- The eight bytes, in memory order, that hold the fields (30_encoding.md R90). -/
def Fields.toBytes (f : Fields) : List Byte :=
  [f.opcode, f.rs, f.rt, f.rd,
    f.imm.extractLsb' 0 8, f.imm.extractLsb' 8 8, f.imm.extractLsb' 16 8, f.imm.extractLsb' 24 8]

/-- The register that a used field of the instruction names: 0 to 31, else refused (30_encoding.md R93, D4). -/
def Fields.reg (f : Fields) (field : Byte) : Except Reject Reg :=
  if h : field.toNat < 32 then .ok ⟨field.toNat, h⟩ else .error (.registerField f.opcode field)

/-- Operand form `rd, rs, rt`. -/
def Fields.rdRsRt (f : Fields) (k : Reg → Reg → Reg → Instr) : Except Reject Instr := do
  let rs ← f.reg f.rs
  let rt ← f.reg f.rt
  let rd ← f.reg f.rd
  return k rd rs rt

/-- Operand form `rt, rs, imm`. -/
def Fields.rtRsImm (f : Fields) (k : Reg → Reg → Word → Instr) : Except Reject Instr := do
  let rs ← f.reg f.rs
  let rt ← f.reg f.rt
  return k rt rs f.imm

/-- Operand form `rt, imm` (LUI). -/
def Fields.rtImm (f : Fields) (k : Reg → Word → Instr) : Except Reject Instr := do
  let rt ← f.reg f.rt
  return k rt f.imm

/-- Operand form `rd, rt, imm` (the immediate shifts). -/
def Fields.rdRtImm (f : Fields) (k : Reg → Reg → Word → Instr) : Except Reject Instr := do
  let rt ← f.reg f.rt
  let rd ← f.reg f.rd
  return k rd rt f.imm

/-- Operand form `rd, rt, rs` (the variable shifts). -/
def Fields.rdRtRs (f : Fields) (k : Reg → Reg → Reg → Instr) : Except Reject Instr := do
  let rs ← f.reg f.rs
  let rt ← f.reg f.rt
  let rd ← f.reg f.rd
  return k rd rt rs

/-- Operand form `rt, offset(rs)` (loads and stores). -/
def Fields.rtOffRs (f : Fields) (k : Reg → Word → Reg → Instr) : Except Reject Instr := do
  let rs ← f.reg f.rs
  let rt ← f.reg f.rt
  return k rt f.imm rs

/-- Operand form `rs, rt, offset` (BEQ, BNE). -/
def Fields.rsRtOff (f : Fields) (k : Reg → Reg → Word → Instr) : Except Reject Instr := do
  let rs ← f.reg f.rs
  let rt ← f.reg f.rt
  return k rs rt f.imm

/-- Operand form `rs, offset` (the branches on zero). -/
def Fields.rsOff (f : Fields) (k : Reg → Word → Instr) : Except Reject Instr := do
  let rs ← f.reg f.rs
  return k rs f.imm

/-- Operand form `rs` (JR). -/
def Fields.rsOnly (f : Fields) (k : Reg → Instr) : Except Reject Instr := do
  let rs ← f.reg f.rs
  return k rs

/-- Operand form `rd, rs` (JALR). -/
def Fields.rdRs (f : Fields) (k : Reg → Reg → Instr) : Except Reject Instr := do
  let rs ← f.reg f.rs
  let rd ← f.reg f.rd
  return k rd rs

/-- Operand form `rd` (GETPC, GETMODE). -/
def Fields.rdOnly (f : Fields) (k : Reg → Instr) : Except Reject Instr := do
  let rd ← f.reg f.rd
  return k rd

/-- Operand form `rd, rt` (SET_PTBR). -/
def Fields.rdRt (f : Fields) (k : Reg → Reg → Instr) : Except Reject Instr := do
  let rt ← f.reg f.rt
  let rd ← f.reg f.rd
  return k rd rt

/-- The opcode map (30_encoding.md R96); every other opcode value is reserved (R97). -/
def decodeFields (f : Fields) : Except Reject Instr :=
  match f.opcode.toNat with
  | 0x00 => .ok .nop
  | 0x01 => f.rdRsRt .add
  | 0x02 => f.rdRsRt .addu
  | 0x03 => f.rdRsRt .sub
  | 0x04 => f.rdRsRt .subu
  | 0x05 => f.rtRsImm .addi
  | 0x06 => f.rtRsImm .addiu
  | 0x10 => f.rdRsRt .and
  | 0x11 => f.rdRsRt .or
  | 0x12 => f.rdRsRt .xor
  | 0x13 => f.rdRsRt .nor
  | 0x14 => f.rtRsImm .andi
  | 0x15 => f.rtRsImm .ori
  | 0x16 => f.rtRsImm .xori
  | 0x17 => f.rtImm .lui
  | 0x20 => f.rdRtImm .sll
  | 0x21 => f.rdRtImm .srl
  | 0x22 => f.rdRtImm .sra
  | 0x23 => f.rdRtRs .sllv
  | 0x24 => f.rdRtRs .srlv
  | 0x25 => f.rdRtRs .srav
  | 0x30 => f.rdRsRt .slt
  | 0x31 => f.rdRsRt .sltu
  | 0x32 => f.rtRsImm .slti
  | 0x33 => f.rtRsImm .sltiu
  | 0x40 => f.rdRsRt .mul
  | 0x41 => f.rdRsRt .mulh
  | 0x42 => f.rdRsRt .mulhu
  | 0x43 => f.rdRsRt .div
  | 0x44 => f.rdRsRt .divu
  | 0x45 => f.rdRsRt .rem
  | 0x46 => f.rdRsRt .remu
  | 0x50 => f.rtOffRs .lw
  | 0x51 => f.rtOffRs .lh
  | 0x52 => f.rtOffRs .lhu
  | 0x53 => f.rtOffRs .lb
  | 0x54 => f.rtOffRs .lbu
  | 0x58 => f.rtOffRs .sw
  | 0x59 => f.rtOffRs .sh
  | 0x5A => f.rtOffRs .sb
  | 0x60 => f.rsRtOff .beq
  | 0x61 => f.rsRtOff .bne
  | 0x62 => f.rsOff .blez
  | 0x63 => f.rsOff .bgtz
  | 0x64 => f.rsOff .bltz
  | 0x65 => f.rsOff .bgez
  | 0x70 => .ok (.j f.imm)
  | 0x71 => .ok (.jal f.imm)
  | 0x72 => f.rsOnly .jr
  | 0x73 => f.rdRs .jalr
  | 0xF0 => .ok (.syscall f.imm)
  | 0xF1 => .ok (.brk f.imm)
  | 0xF2 => .ok .ei
  | 0xF3 => .ok .di
  | 0xF4 => .ok .iret
  | 0xF5 => .ok (.raise f.imm)
  | 0xF6 => f.rdOnly .getpc
  | 0xF7 => .ok .enablePaging
  | 0xF8 => .ok .disablePaging
  | 0xF9 => f.rdRt .setPtbr
  | 0xFB => .ok .enterUser
  | 0xFC => f.rdOnly .getmode
  | _ => .error (.reservedOpcode f.opcode)

/-- The instruction that eight bytes in memory order hold, or why they hold none (60_exceptions.md R231, step 5). -/
def decode (bytes : List Byte) : Except Reject Instr :=
  match Fields.ofBytes bytes with
  | some f => decodeFields f
  | none => .error .length

/-- The field value that names a register (30_encoding.md R91, R93). -/
def Reg.toByte (r : Reg) : Byte := BitVec.ofNat 8 r.val

/-- The fields of an instruction, with 0 in every unused field (30_encoding.md R92, R96). -/
def encodeFields : Instr → Fields
  | .nop => ⟨0x00#8, 0, 0, 0, 0⟩
  | .add rd rs rt => ⟨0x01#8, rs.toByte, rt.toByte, rd.toByte, 0⟩
  | .addu rd rs rt => ⟨0x02#8, rs.toByte, rt.toByte, rd.toByte, 0⟩
  | .sub rd rs rt => ⟨0x03#8, rs.toByte, rt.toByte, rd.toByte, 0⟩
  | .subu rd rs rt => ⟨0x04#8, rs.toByte, rt.toByte, rd.toByte, 0⟩
  | .addi rt rs imm => ⟨0x05#8, rs.toByte, rt.toByte, 0, imm⟩
  | .addiu rt rs imm => ⟨0x06#8, rs.toByte, rt.toByte, 0, imm⟩
  | .and rd rs rt => ⟨0x10#8, rs.toByte, rt.toByte, rd.toByte, 0⟩
  | .or rd rs rt => ⟨0x11#8, rs.toByte, rt.toByte, rd.toByte, 0⟩
  | .xor rd rs rt => ⟨0x12#8, rs.toByte, rt.toByte, rd.toByte, 0⟩
  | .nor rd rs rt => ⟨0x13#8, rs.toByte, rt.toByte, rd.toByte, 0⟩
  | .andi rt rs imm => ⟨0x14#8, rs.toByte, rt.toByte, 0, imm⟩
  | .ori rt rs imm => ⟨0x15#8, rs.toByte, rt.toByte, 0, imm⟩
  | .xori rt rs imm => ⟨0x16#8, rs.toByte, rt.toByte, 0, imm⟩
  | .lui rt imm => ⟨0x17#8, 0, rt.toByte, 0, imm⟩
  | .sll rd rt imm => ⟨0x20#8, 0, rt.toByte, rd.toByte, imm⟩
  | .srl rd rt imm => ⟨0x21#8, 0, rt.toByte, rd.toByte, imm⟩
  | .sra rd rt imm => ⟨0x22#8, 0, rt.toByte, rd.toByte, imm⟩
  | .sllv rd rt rs => ⟨0x23#8, rs.toByte, rt.toByte, rd.toByte, 0⟩
  | .srlv rd rt rs => ⟨0x24#8, rs.toByte, rt.toByte, rd.toByte, 0⟩
  | .srav rd rt rs => ⟨0x25#8, rs.toByte, rt.toByte, rd.toByte, 0⟩
  | .slt rd rs rt => ⟨0x30#8, rs.toByte, rt.toByte, rd.toByte, 0⟩
  | .sltu rd rs rt => ⟨0x31#8, rs.toByte, rt.toByte, rd.toByte, 0⟩
  | .slti rt rs imm => ⟨0x32#8, rs.toByte, rt.toByte, 0, imm⟩
  | .sltiu rt rs imm => ⟨0x33#8, rs.toByte, rt.toByte, 0, imm⟩
  | .mul rd rs rt => ⟨0x40#8, rs.toByte, rt.toByte, rd.toByte, 0⟩
  | .mulh rd rs rt => ⟨0x41#8, rs.toByte, rt.toByte, rd.toByte, 0⟩
  | .mulhu rd rs rt => ⟨0x42#8, rs.toByte, rt.toByte, rd.toByte, 0⟩
  | .div rd rs rt => ⟨0x43#8, rs.toByte, rt.toByte, rd.toByte, 0⟩
  | .divu rd rs rt => ⟨0x44#8, rs.toByte, rt.toByte, rd.toByte, 0⟩
  | .rem rd rs rt => ⟨0x45#8, rs.toByte, rt.toByte, rd.toByte, 0⟩
  | .remu rd rs rt => ⟨0x46#8, rs.toByte, rt.toByte, rd.toByte, 0⟩
  | .lw rt imm rs => ⟨0x50#8, rs.toByte, rt.toByte, 0, imm⟩
  | .lh rt imm rs => ⟨0x51#8, rs.toByte, rt.toByte, 0, imm⟩
  | .lhu rt imm rs => ⟨0x52#8, rs.toByte, rt.toByte, 0, imm⟩
  | .lb rt imm rs => ⟨0x53#8, rs.toByte, rt.toByte, 0, imm⟩
  | .lbu rt imm rs => ⟨0x54#8, rs.toByte, rt.toByte, 0, imm⟩
  | .sw rt imm rs => ⟨0x58#8, rs.toByte, rt.toByte, 0, imm⟩
  | .sh rt imm rs => ⟨0x59#8, rs.toByte, rt.toByte, 0, imm⟩
  | .sb rt imm rs => ⟨0x5A#8, rs.toByte, rt.toByte, 0, imm⟩
  | .beq rs rt imm => ⟨0x60#8, rs.toByte, rt.toByte, 0, imm⟩
  | .bne rs rt imm => ⟨0x61#8, rs.toByte, rt.toByte, 0, imm⟩
  | .blez rs imm => ⟨0x62#8, rs.toByte, 0, 0, imm⟩
  | .bgtz rs imm => ⟨0x63#8, rs.toByte, 0, 0, imm⟩
  | .bltz rs imm => ⟨0x64#8, rs.toByte, 0, 0, imm⟩
  | .bgez rs imm => ⟨0x65#8, rs.toByte, 0, 0, imm⟩
  | .j imm => ⟨0x70#8, 0, 0, 0, imm⟩
  | .jal imm => ⟨0x71#8, 0, 0, 0, imm⟩
  | .jr rs => ⟨0x72#8, rs.toByte, 0, 0, 0⟩
  | .jalr rd rs => ⟨0x73#8, rs.toByte, 0, rd.toByte, 0⟩
  | .syscall imm => ⟨0xF0#8, 0, 0, 0, imm⟩
  | .brk imm => ⟨0xF1#8, 0, 0, 0, imm⟩
  | .ei => ⟨0xF2#8, 0, 0, 0, 0⟩
  | .di => ⟨0xF3#8, 0, 0, 0, 0⟩
  | .iret => ⟨0xF4#8, 0, 0, 0, 0⟩
  | .raise imm => ⟨0xF5#8, 0, 0, 0, imm⟩
  | .getpc rd => ⟨0xF6#8, 0, 0, rd.toByte, 0⟩
  | .enablePaging => ⟨0xF7#8, 0, 0, 0, 0⟩
  | .disablePaging => ⟨0xF8#8, 0, 0, 0, 0⟩
  | .setPtbr rd rt => ⟨0xF9#8, 0, rt.toByte, rd.toByte, 0⟩
  | .enterUser => ⟨0xFB#8, 0, 0, 0, 0⟩
  | .getmode rd => ⟨0xFC#8, 0, 0, rd.toByte, 0⟩

/-- The eight bytes of an instruction in memory order (30_encoding.md R90, R96). -/
def encode (i : Instr) : List Byte := (encodeFields i).toBytes

/-- The bytes, in memory order, of the instruction word W of 00_scope.md R11 and 30_encoding.md R90, whose bits are those of
`w` below `nbits` and 0 above: B0 is W[63:56], B3 is W[39:32], and the immediate W[31:0] is little-endian. This is the
numbering of opcode_table.json (R99; log 6). -/
def tableWordBytes (nbits w : Nat) : List Byte :=
  let word : BitVec 64 := BitVec.ofNat 64 (w % 2 ^ nbits)
  [word.extractLsb' 56 8, word.extractLsb' 48 8, word.extractLsb' 40 8, word.extractLsb' 32 8,
    word.extractLsb' 0 8, word.extractLsb' 8 8, word.extractLsb' 16 8, word.extractLsb' 24 8]

/-- The instruction the decoder reads from the table's word `w` of `nbits` bits, none where it refuses. -/
def decodeTableWord (nbits w : Nat) : Option Instr :=
  match decode (tableWordBytes nbits w) with
  | .ok i => some i
  | .error _ => none

end Sys2Proof
end

