-- ==== Sys2Proof/Config.lean ====
section
/-! DEFINITION. The parameters of 00_scope.md R7, each with the value the spec takes for it, and the four launch
parameters the spec leaves OPEN, each with the value the model names for its reset state. -/

namespace Sys2Proof.Config

/-- MEM_SIZE at reset (R7: OPEN, 0 to 0xFFFFFFFF): the largest memory the spec allows. DESIGN CHOICE, unsafe (log 1). -/
def resetMemSize : Word := 0xFFFFFFFF#32

/-- ENTRY_PC (R7: OPEN): the address the source's layouts and the spec's examples put code at (70_reset_and_hazards.md R283).
DESIGN CHOICE, unsafe (log 2). -/
def entryPc : Word := 0x00001000#32

/-- INIT_REGS (R7: OPEN): the value of R1 to R31 at reset. DESIGN CHOICE, unsafe (log 3). -/
def initReg : Word := 0#32

/-- IMAGE (R7: OPEN): what a byte of memory that nothing has written reads as. DESIGN CHOICE, unsafe (log 4). -/
def unlistedByte : Byte := 0#8

/-- SHIFT_OVER (R7, 42_shift.md R146): the shift amount is taken modulo 32. The spec's own choice, taken from general
knowledge: PRESUMED, unsafe above 31 (log 11). -/
def shiftAmount (amount : Word) : Nat := amount.toNat % 32

/-- DIV_OVERFLOW (R7, 44_muldiv.md R169): the quotient of 0x80000000 / -1. PRESUMED, unsafe (log 13). -/
def divOverflowQuotient : Word := 0x80000000#32

/-- DIV_OVERFLOW (R7, 44_muldiv.md R169): the remainder of 0x80000000 / -1. PRESUMED, unsafe (log 13). -/
def divOverflowRemainder : Word := 0#32

/-- The result of a division or remainder by zero, with DIV_ZERO_RAISES = false (R7, 44_muldiv.md R168; log 14). -/
def divZeroResult : Word := 0#32

/-- HANDLER_INSTALLED (R7, 60_exceptions.md R234): interrupt n has a handler when its handler word is not 0 (log 18). -/
def handlerInstalled (handlerWord : Word) : Bool := handlerWord != 0#32

end Sys2Proof.Config
end

