-- ==== Sys2Proof/Machine/State.lean ====
section
/-! DEFINITION. The state of the machine (10_state.md R20 to R40), the reasons it stops, and its state after reset. -/

namespace Sys2Proof.Machine

/-- An interrupt number, 0 to 255 (60_exceptions.md R235). -/
abbrev IntNum := Fin 256

/-- Physical memory: the bytes that differ from what an unlisted address reads as, addresses strictly rising. -/
abbrev Memory := List Host.Cell

/-- The one canonical form: addresses strictly rising, no entry equal to what an unlisted address reads as. -/
abbrev Memory.wf (m : Memory) : Prop :=
  m.Pairwise (fun c d => c.1 < d.1) ∧ ∀ c ∈ m, c.2 ≠ Config.unlistedByte

/-- Why the machine stopped (60_exceptions.md R246). A label of the spec's, not architectural state (R245). -/
inductive StopReason where
  /-- At fetch, pc mod 8 is not 0 (20_memory.md R64). -/
  | pcMisaligned
  /-- At fetch, the physical fetch address + 8 exceeds MEM_SIZE (20_memory.md R64). -/
  | pcOutOfBounds
  /-- Fault(n) or Trap(n) raised with int_enabled = 0 (60_exceptions.md R240, R241). -/
  | undeliverable (n : IntNum)
  /-- Dispatch of n found no handler installed (60_exceptions.md R234). -/
  | noHandler (n : IntNum)
  /-- Dispatch of n with its IVT word outside memory (60_exceptions.md R250). -/
  | ivtOutOfBounds
  /-- A register frame outside memory, at dispatch or IRET (60_exceptions.md R250, 49_system.md R215). -/
  | frameOutOfBounds
  /-- The host wrote 0 to `running` (70_reset_and_hazards.md R286): no stop of the machine's own (log 36). -/
  | byHost
  deriving DecidableEq, Repr

/-- The complete state (10_state.md R20), with the memory size (R7) and the label of the stop (60_exceptions.md R245). -/
structure State where
  /-- `x[0]` to `x[31]` (R21). -/
  regs : Vector Word 32
  /-- The program counter (R24). -/
  pc : Word
  /-- `Mem[0 .. MEM_SIZE-1]` (R38). -/
  mem : Memory
  /-- MEM_SIZE, the source's field `memory_size`: a launch parameter that no instruction changes (R20, 00_scope.md R7). -/
  memSize : Word
  /-- 1 while the machine takes cycles (R35). -/
  running : Bool
  /-- 1 = kernel, 0 = user (R28). -/
  kernelMode : Bool
  /-- Virtual addressing on (R29). -/
  pagingEnabled : Bool
  /-- Physical address of the page table (R30). -/
  pageTableBase : Word
  /-- Number of virtual pages the table describes (R30). -/
  numPages : Word
  /-- The global interrupt enable flag (R31). -/
  intEnabled : Bool
  /-- One pending bit per interrupt number (R34). -/
  pending : Vector Bool 256
  /-- The pc saved by the last dispatch (R32). -/
  savedPc : Word
  /-- The physical address of the frame written by the last dispatch (R33). -/
  savedRegsAddr : Word
  /-- `kernel_mode` as it was before the last dispatch (R33, D18). -/
  savedMode : Bool
  /-- The MODEL's own field: the last dispatch has not been ended by its IRET (60_exceptions.md R257, U9, U10; log 21, 22). -/
  outstanding : Bool
  /-- The MODEL's own field: the label of the stop that cleared `running` (60_exceptions.md R245; log 32). -/
  stopReason : Option StopReason
  deriving DecidableEq, Repr

/-- Why a step has no next state. -/
inductive Fault where
  /-- Raised by `step` alone, when `running` = 0: the machine takes no further cycle (60_exceptions.md R231, R245), for the
  reason it stopped. Safe: nothing is claimed of a stopped machine. -/
  | stopped (reason : Option StopReason)
  deriving DecidableEq, Repr

/-- What the spec gives no meaning to. -/
inductive Refusal where
  /-- Raised by no arm of this model: an instruction that has no meaning yet. Safe. -/
  | notModelled (mnemonic : String)
  /-- Raised at decode: a used register field holds 32 to 255 (30_encoding.md R93, D4; log 7). Safe. -/
  | registerFieldAbove31 (opcode field : Byte)
  /-- Raised by JALR whose rd and rs fields name the same register (48_jump.md R203, D21; log 24). Safe. -/
  | jalrSameRegister
  /-- Raised by RAISE with an immediate above 255 (49_system.md R216, D22; log 25). Safe. -/
  | raiseNumberAbove255
  /-- Raised by IRET in kernel mode with no dispatch outstanding (49_system.md R215, U9, D27; log 22). Safe. -/
  | iretOutsideDispatch
  /-- Raised by `step` alone, where it would dispatch an interrupt before the IRET of the dispatch outstanding
  (60_exceptions.md R257, U10, D19; log 21). Safe. -/
  | nestedDispatch
  /-- Raised by `step` alone if the bytes fetched are not eight; its fetch always gives eight, so never. Safe. -/
  | notEightBytes
  deriving DecidableEq, Repr

/-- What an instruction or a step answers. -/
abbrev Result := Host.Outcome State Fault Refusal

/-- The machine when the host starts it (10_state.md R40, 70_reset_and_hazards.md R281). The open launch parameters hold
the values of Config (log 1 to 4), the control state the values of the spec's decision D3 (log 5). -/
def State.reset : State where
  regs := Vector.ofFn fun r => if r = 0 then 0#32 else Config.initReg
  pc := Config.entryPc
  mem := []
  memSize := Config.resetMemSize
  running := true
  kernelMode := true
  pagingEnabled := false
  pageTableBase := 0#32
  numPages := 0#32
  intEnabled := false
  pending := Vector.replicate 256 false
  savedPc := 0#32
  savedRegsAddr := 0#32
  savedMode := true
  outstanding := false
  stopReason := none

end Sys2Proof.Machine
end

