-- ==== Sys2Proof/Machine/Ops.lean ====
section
/-! DEFINITION. The named operations every instruction is built from: registers, memory, translation, raising an
exception, taking one (dispatch) and returning from one (IRET), and the fetch (10_state.md, 20_memory.md, 60_exceptions.md). -/

namespace Sys2Proof.Machine

/-! ## Registers and the pc -/

/-- `x[r]`: R0 reads 0 (10_state.md R21). -/
def State.getReg (s : State) (r : Reg) : Word := if r = 0 then 0#32 else s.regs[r]

/-- `x[r] <- v`: a write to R0 has no effect (10_state.md R21). -/
def State.setReg (s : State) (r : Reg) (v : Word) : State :=
  if r = 0 then s else { s with regs := s.regs.set r v }

/-- `pc <- t` (10_state.md R24). -/
def State.jump (s : State) (target : Word) : State := { s with pc := target }

/-- `pc <- (pc + 8) mod 2^32` (10_state.md R24, R25). -/
def State.advance (s : State) : State := s.jump (s.pc + 8#32)

/-- The common end of an instruction with one destination register: write it and go to the next instruction. -/
def State.writeAndAdvance (s : State) (rd : Reg) (v : Word) : State := (s.setReg rd v).advance

/-! ## Bytes of memory -/

/-- `Mem[a]`. -/
def Memory.read : Memory → Nat → Byte
  | [], _ => Config.unlistedByte
  | (b, v) :: m, a => if a = b then v else Memory.read m a

/-- `Mem[a] <- v`, in the canonical form: writing what an unlisted address reads as removes the entry. -/
def Memory.write : Memory → Nat → Byte → Memory
  | [], a, v => if v = Config.unlistedByte then [] else [(a, v)]
  | (b, w) :: m, a, v =>
    if a = b then
      if v = Config.unlistedByte then Memory.write m a v else (a, v) :: m
    else if a < b ∧ v ≠ Config.unlistedByte then (a, v) :: (b, w) :: m
    else (b, w) :: Memory.write m a v

/-- The `n` bytes from address `a` up. -/
def Memory.readBytes (m : Memory) (a : Nat) : Nat → List Byte
  | 0 => []
  | n + 1 => m.read a :: Memory.readBytes m (a + 1) n

/-- Store the bytes from address `a` up. -/
def Memory.writeBytes (m : Memory) (a : Nat) : List Byte → Memory
  | [] => m
  | b :: bs => Memory.writeBytes (m.write a b) (a + 1) bs

/-- The bytes below `size`: what stays of memory when it has that size (20_memory.md R57). -/
def Memory.truncate (m : Memory) (size : Nat) : Memory := m.filter fun c => c.1 < size

/-! ## Byte order (20_memory.md R50, R51) -/

/-- The number that bytes, lowest address first, stand for: the sum of byte k times 2^(8k) (20_memory.md R51). -/
def leValue : List Byte → Nat
  | [] => 0
  | b :: bs => b.toNat + 256 * leValue bs

/-- The `n` bytes, lowest address first, of a number: byte k is its bits 8k+7 to 8k (20_memory.md R51). -/
def leBytes : Nat → Nat → List Byte
  | 0, _ => []
  | n + 1, v => BitVec.ofNat 8 v :: leBytes n (v / 256)

/-! ## Physical accesses (20_memory.md R57 to R59): the machine's own, untranslated, with no alignment requirement -/

/-- A physical access of `n` bytes at `pa` is in bounds, as natural numbers (20_memory.md R57). -/
def State.inBounds (s : State) (pa n : Nat) : Bool := pa + n ≤ s.memSize.toNat

/-- `LE(pa, n)`, the value `PhysRead` gives for an access in bounds (20_memory.md R51, R58), as a word. -/
def State.physRead (s : State) (pa n : Nat) : Word := BitVec.ofNat 32 (leValue (s.mem.readBytes pa n))

/-- `PhysWrite` of an access in bounds (20_memory.md R59). -/
def State.physWrite (s : State) (pa n : Nat) (v : Word) : State :=
  { s with mem := s.mem.writeBytes pa (leBytes n v.toNat) }

/-! ## Interrupt numbers the machine raises (60_exceptions.md R235) -/

/-- 1 ILLEGAL_OP. -/
def IntNum.illegalOp : IntNum := 1
/-- 2 MEM_FAULT. -/
def IntNum.memFault : IntNum := 2
/-- 4 SYSCALL. -/
def IntNum.syscall : IntNum := 4
/-- 5 BREAK. -/
def IntNum.brk : IntNum := 5
/-- 7 PRIVILEGE_VIOLATION. -/
def IntNum.privilegeViolation : IntNum := 7
/-- 8 PAGE_FAULT. -/
def IntNum.pageFault : IntNum := 8

/-! ## Address translation (20_memory.md R65 to R73) -/

/-- The kind of access that is translated (20_memory.md R70). -/
inductive AccessKind where
  | read
  | write
  | exec
  deriving DecidableEq, Repr

/-- Translation applies exactly in user mode with paging enabled (20_memory.md R65). -/
def State.translates (s : State) : Bool := !s.kernelMode && s.pagingEnabled

/-- The page number of a virtual address, bits 31:12 (20_memory.md R66). -/
def pageNumber (va : Word) : BitVec 20 := va.extractLsb' 12 20

/-- The page offset of a virtual address, bits 11:0 (20_memory.md R66). -/
def pageOffset (va : Word) : BitVec 12 := va.extractLsb' 0 12

/-- The physical address of the entry for page N: `page_table_base + 4*N`, without wrap (20_memory.md R68, R70, D24). -/
def State.pteAddress (s : State) (page : BitVec 20) : Nat := s.pageTableBase.toNat + 4 * page.toNat

/-- V, bit 0 of a page table entry (20_memory.md R67). -/
def pteValid (pte : Word) : Bool := pte.getLsbD 0
/-- W, bit 1. -/
def pteWritable (pte : Word) : Bool := pte.getLsbD 1
/-- X, bit 2. -/
def pteExecutable (pte : Word) : Bool := pte.getLsbD 2
/-- U, bit 3. -/
def pteUser (pte : Word) : Bool := pte.getLsbD 3

/-- The permission an access needs: a read V and U only, a write also W, a fetch also X (20_memory.md R69). -/
def ptePermits (pte : Word) (acc : AccessKind) : Bool :=
  pteValid pte && pteUser pte &&
    match acc with
    | .read => true
    | .write => pteWritable pte
    | .exec => pteExecutable pte

/-- The physical page number, bits 31:12, followed by the offset (20_memory.md R67, R70). -/
def ptePhysical (pte : Word) (offset : BitVec 12) : Word := pte.extractLsb' 12 20 ++ offset

/-- `Translate(va, acc)`: the physical address, or the number of the fault to raise (20_memory.md R70). -/
def State.translate (s : State) (va : Word) (acc : AccessKind) : Except IntNum Word :=
  if s.translates then
    if (pageNumber va).toNat < s.numPages.toNat then
      if s.inBounds (s.pteAddress (pageNumber va)) 4 then
        if ptePermits (s.physRead (s.pteAddress (pageNumber va)) 4) acc then
          .ok (ptePhysical (s.physRead (s.pteAddress (pageNumber va)) 4) (pageOffset va))
        else .error IntNum.pageFault
      else .error IntNum.memFault
    else .error IntNum.pageFault
  else .ok va

/-! ## Data accesses (20_memory.md R62, R63) -/

/-- The physical address of a data access of `n` bytes, checked for alignment, translation and bounds in this order
(20_memory.md R62, R63, D23), or the number of the fault to raise. -/
def State.dataAddress (s : State) (va : Word) (n : Nat) (acc : AccessKind) : Except IntNum Nat :=
  if va.toNat % n ≠ 0 then .error IntNum.memFault
  else
    match s.translate va acc with
    | .error k => .error k
    | .ok pa => if s.inBounds pa.toNat n then .ok pa.toNat else .error IntNum.memFault

/-- `MemRead(va, n)`: the value as a word, or the number of the fault to raise (20_memory.md R62). -/
def State.memRead (s : State) (va : Word) (n : Nat) : Except IntNum Word :=
  match s.dataAddress va n .read with
  | .error k => .error k
  | .ok pa => .ok (s.physRead pa n)

/-- `MemWrite(va, n, v)`: the state with the bytes stored, or the number of the fault to raise (20_memory.md R63). -/
def State.memWrite (s : State) (va : Word) (n : Nat) (v : Word) : Except IntNum State :=
  match s.dataAddress va n .write with
  | .error k => .error k
  | .ok pa => .ok (s.physWrite pa n v)

/-! ## Stopping and raising (60_exceptions.md R240 to R246) -/

/-- `Stop(reason)`: `running <- 0` (60_exceptions.md R245); the reason is the model's label (log 32). -/
def State.stop (s : State) (reason : StopReason) : State :=
  { s with running := false, stopReason := some reason }

/-- `pending[n] <- 1`: what RAISE and the host do, and the first act of a fault or trap (60_exceptions.md R242). -/
def State.pend (s : State) (n : IntNum) : State := { s with pending := s.pending.set n true }

/-- A raised exception cannot be delivered with interrupts disabled: the machine stops (60_exceptions.md R240, R241). -/
def State.deliverable (s : State) (n : IntNum) : State :=
  if s.intEnabled then s else s.stop (.undeliverable n)

/-- `raise Fault(n)`: the instruction is abandoned with no effect, the pc stays at it (60_exceptions.md R240). -/
def State.raiseFault (s : State) (n : IntNum) : State := (s.pend n).deliverable n

/-- `raise Trap(n)`: as a fault, but the pc goes past the instruction (60_exceptions.md R241). -/
def State.raiseTrap (s : State) (n : IntNum) : State := (s.pend n).advance.deliverable n

/-- The privilege check that a privileged instruction begins with (49_system.md R223, 60_exceptions.md R262). -/
def State.privileged (s : State) (effect : State) : State :=
  if s.kernelMode then effect else s.raiseFault IntNum.privilegeViolation

/-! ## Taking an exception (60_exceptions.md R250, R251) -/

/-- The 128 bytes of a register frame: x[0] to x[31], each a little-endian word (60_exceptions.md R251). -/
def State.frameBytes (s : State) : List Byte :=
  (List.finRange 32).flatMap fun r => leBytes 4 (s.getReg r).toNat

/-- Where a dispatch puts the frame: `(x[29] - 128) mod 2^32` (60_exceptions.md R250). -/
def State.frameAddress (s : State) : Word := s.getReg 29 - 128#32

/-- The address of the handler word of interrupt n (20_memory.md R74). -/
def ivtAddress (n : IntNum) : Nat := 8 * n.val

/-- Steps 1 and 2 of dispatch: enter kernel mode, keep the old mode and the pc (60_exceptions.md R250); the dispatch is
outstanding until an IRET ends it (log 22). -/
def State.dispatchEnter (s : State) : State :=
  { s with savedMode := s.kernelMode, kernelMode := true, savedPc := s.pc, outstanding := true }

/-- Steps 3 to 8 of dispatch, once the frame is known to be in bounds: save the registers, move R29 to the frame, record
its address, disable interrupts, put the number in R4, clear the pending bit (60_exceptions.md R250). -/
def State.dispatchSave (s : State) (n : IntNum) : State :=
  let frame := s.frameAddress
  let saved := { s with mem := s.mem.writeBytes frame.toNat s.frameBytes, savedRegsAddr := frame, intEnabled := false,
                        pending := s.pending.set n false }
  (saved.setReg 29 frame).setReg 4 (BitVec.ofNat 32 n.val)

/-- Steps 9 and 10 of dispatch: go to the handler read from the IVT, which is read after the frame is written; stop where
the IVT word is outside memory or no handler is installed (60_exceptions.md R250, R234). -/
def State.dispatchVector (s : State) (n : IntNum) : State :=
  if s.inBounds (ivtAddress n) 4 then
    if Config.handlerInstalled (s.physRead (ivtAddress n) 4) then s.jump (s.physRead (ivtAddress n) 4)
    else s.stop (.noHandler n)
  else s.stop .ivtOutOfBounds

/-- `Dispatch(n)`: taking interrupt n (60_exceptions.md R250). It overwrites the single saved context (R257); the cycle refuses
it where an earlier dispatch is outstanding (`State.nests`; log 21). -/
def State.dispatch (s : State) (n : IntNum) : State :=
  if s.inBounds s.frameAddress.toNat 128 then (s.dispatchEnter.dispatchSave n).dispatchVector n
  else s.dispatchEnter.stop .frameOutOfBounds

/-- The lowest-numbered pending interrupt (60_exceptions.md R233). -/
def State.leastPending (s : State) : Option IntNum := (List.finRange 256).find? fun n => s.pending[n]

/-- Step 1 of the cycle: with interrupts enabled, dispatch the lowest-numbered pending one (60_exceptions.md R231, R232). -/
def State.interruptCheck (s : State) : State :=
  if s.intEnabled then
    match s.leastPending with
    | some n => s.dispatch n
    | none => s
  else s

/-- An interrupt is due and would be dispatched before an earlier dispatch has been ended by its IRET: what NESTED_CONTEXT =
`single_slot` gives no meaning (60_exceptions.md R257, 00_scope.md R7, U10; log 21). -/
def State.nests (s : State) : Bool := s.outstanding && s.intEnabled && s.leastPending.isSome

/-! ## Returning from an exception (49_system.md R215, 60_exceptions.md R255) -/

/-- The registers that the frame at `saved_regs_addr` holds now; R0 stays 0 whatever its word holds (49_system.md R215). -/
def State.frameRegs (s : State) : Vector Word 32 :=
  Vector.ofFn fun r => if r = 0 then 0#32 else s.physRead (s.savedRegsAddr.toNat + 4 * r.val) 4

/-- IRET in kernel mode: restore the registers, the pc and the mode, enable interrupts, which ends the dispatch; stop where
the frame is outside memory. The saved state itself is unchanged (49_system.md R215; log 22). -/
def State.returnFromInterrupt (s : State) : State :=
  if s.inBounds s.savedRegsAddr.toNat 128 then
    { s with regs := s.frameRegs, pc := s.savedPc, kernelMode := s.savedMode, intEnabled := true,
             outstanding := false }
  else s.stop .frameOutOfBounds

/-! ## Fetch (20_memory.md R64) -/

/-- What a fetch gives. -/
inductive Fetched where
  | bytes (bs : List Byte)
  | fault (n : IntNum)
  | stop (reason : StopReason)
  deriving DecidableEq, Repr

/-- `Fetch(pc)`: alignment, translation, bounds, in this order (20_memory.md R64, D23). -/
def State.fetch (s : State) : Fetched :=
  if s.pc.toNat % 8 ≠ 0 then .stop .pcMisaligned
  else
    match s.translate s.pc .exec with
    | .error n => .fault n
    | .ok pa => if s.inBounds pa.toNat 8 then .bytes (s.mem.readBytes pa.toNat 8) else .stop .pcOutOfBounds

/-- The seven privileged opcodes (60_exceptions.md R262). -/
def privilegedOpcode (opcode : Byte) : Bool :=
  opcode ∈ [0xF2#8, 0xF3#8, 0xF4#8, 0xF7#8, 0xF8#8, 0xF9#8, 0xFB#8]

/-- What the cycle does with bytes that decode to no instruction, in the order of 60_exceptions.md R231: a reserved opcode
is an illegal instruction (R97); a privileged opcode in user mode is a violation before its operands matter (R262); a used
register field above 31 has no meaning (30_encoding.md R93; log 7). -/
def State.onReject (s : State) (e : Reject) : Result :=
  match e with
  | .reservedOpcode _ => .next (s.raiseFault IntNum.illegalOp)
  | .registerField opcode field =>
    if privilegedOpcode opcode && !s.kernelMode then .next (s.raiseFault IntNum.privilegeViolation)
    else .refused (.registerFieldAbove31 opcode field)
  | .length => .refused .notEightBytes

end Sys2Proof.Machine
end

