-- ==== Sys2Proof/Machine/Operands.lean ====
section
/-! DEFINITION. Operand forms and results shared by the instructions: effective addresses, branch targets, shifts,
products, quotients, extensions. -/

namespace Sys2Proof.Machine

/-- `ea = (x[rs] + imm) mod 2^32` (45_load.md R175, 46_store.md R183, D7). -/
def State.effectiveAddress (s : State) (rs : Reg) (offset : Word) : Word := s.getReg rs + offset

/-- The address of the next instruction, the link value: `(pc + 8) mod 2^32` (48_jump.md R204). -/
def State.link (s : State) : Word := s.pc + 8#32

/-- A taken branch goes to `(pc + imm) mod 2^32`, pc being the branch's own address; an untaken one to the next
instruction (47_branch.md R196, D20). -/
def State.branch (s : State) (taken : Bool) (offset : Word) : State :=
  if taken then s.jump (s.pc + offset) else s.advance

/-- Sign extension of the low 16 bits: `sext_16` (00_scope.md R9). -/
def sext16 (v : Word) : Word := (v.extractLsb' 0 16).signExtend 32

/-- Sign extension of the low 8 bits: `sext_8` (00_scope.md R9). -/
def sext8 (v : Word) : Word := (v.extractLsb' 0 8).signExtend 32

/-- Zero extension of the low 16 bits: `zext_16` (00_scope.md R9). -/
def zext16 (v : Word) : Word := (v.extractLsb' 0 16).setWidth 32

/-- Zero extension of the low 8 bits: `zext_8` (00_scope.md R9). -/
def zext8 (v : Word) : Word := (v.extractLsb' 0 8).setWidth 32

/-- `imm[15:0] ++ 0x0000` (41_logical.md R137). -/
def upperImmediate (imm : Word) : Word := imm <<< 16

/-- `(v * 2^sa) mod 2^32`, sa taken from the amount by SHIFT_OVER (42_shift.md R146). -/
def shiftLeft (v amount : Word) : Word := v <<< Config.shiftAmount amount

/-- `floor(v / 2^sa)` (42_shift.md R146). -/
def shiftRightLogical (v amount : Word) : Word := v >>> Config.shiftAmount amount

/-- `floor(signed_32(v) / 2^sa) mod 2^32` (42_shift.md R146). -/
def shiftRightArith (v amount : Word) : Word := v.sshiftRight (Config.shiftAmount amount)

/-- Bits 63:32 of the product of the two signed operands (44_muldiv.md R161). -/
def mulHighSigned (a b : Word) : Word := BitVec.ofInt 32 (a.toInt * b.toInt / 2 ^ 32)

/-- `floor((a * b) / 2^32)`, both unsigned (44_muldiv.md R162). -/
def mulHighUnsigned (a b : Word) : Word := BitVec.ofNat 32 (a.toNat * b.toNat / 2 ^ 32)

/-- The one signed division whose true quotient does not fit: -2^31 by -1 (44_muldiv.md R169). -/
def divOverflows (a b : Word) : Bool := a.toInt == -2 ^ 31 && b.toInt == -1

/-- The signed quotient, rounded toward zero; the zero divisor and the overflow as the spec's parameters say
(44_muldiv.md R163, R168, R169). -/
def divSigned (a b : Word) : Word :=
  if b.toInt = 0 then Config.divZeroResult
  else if divOverflows a b then Config.divOverflowQuotient
  else BitVec.ofInt 32 (a.toInt.tdiv b.toInt)

/-- The signed remainder `a - trunc(a / b) * b`, of the sign of the dividend (44_muldiv.md R165, R168, R169). -/
def remSigned (a b : Word) : Word :=
  if b.toInt = 0 then Config.divZeroResult
  else if divOverflows a b then Config.divOverflowRemainder
  else BitVec.ofInt 32 (a.toInt - a.toInt.tdiv b.toInt * b.toInt)

/-- The unsigned quotient (44_muldiv.md R164, R168). -/
def divUnsigned (a b : Word) : Word :=
  if b.toNat = 0 then Config.divZeroResult else BitVec.ofNat 32 (a.toNat / b.toNat)

/-- The unsigned remainder (44_muldiv.md R166, R168). -/
def remUnsigned (a b : Word) : Word :=
  if b.toNat = 0 then Config.divZeroResult else BitVec.ofNat 32 (a.toNat % b.toNat)

/-- A load: the value `MemRead` gives, extended, into rt; or the fault it raises, rt and pc unchanged
(45_load.md R176, R177). -/
def State.load (s : State) (rt : Reg) (va : Word) (n : Nat) (extend : Word → Word) : State :=
  match s.memRead va n with
  | .ok v => s.writeAndAdvance rt (extend v)
  | .error k => s.raiseFault k

/-- A store of the low 8n bits of v: the state `MemWrite` gives; or the fault it raises, nothing changed
(46_store.md R183, R184). -/
def State.store (s : State) (va : Word) (n : Nat) (v : Word) : State :=
  match s.memWrite va n v with
  | .ok t => t.advance
  | .error k => s.raiseFault k

end Sys2Proof.Machine
end

