-- ==== Sys2Proof/Machine/Arithmetic.lean ====
section
/-! DEFINITION. The meanings of the arithmetic operations (40_arithmetic.md). All results are modulo 2^32; none traps (R126, R127; log 9). -/

namespace Sys2Proof.Machine

/-- ADD. `x[rd] <- (x[rs] + x[rt]) mod 2^32` (R120). -/
def execAdd (rd rs rt : Reg) (s : State) : Result :=
  .next (s.writeAndAdvance rd (s.getReg rs + s.getReg rt))

/-- ADDU. The same result as ADD for every input (R121). -/
def execAddu (rd rs rt : Reg) (s : State) : Result :=
  .next (s.writeAndAdvance rd (s.getReg rs + s.getReg rt))

/-- SUB. `x[rd] <- (x[rs] - x[rt]) mod 2^32` (R122). -/
def execSub (rd rs rt : Reg) (s : State) : Result :=
  .next (s.writeAndAdvance rd (s.getReg rs - s.getReg rt))

/-- SUBU. The same result as SUB for every input (R123). -/
def execSubu (rd rs rt : Reg) (s : State) : Result :=
  .next (s.writeAndAdvance rd (s.getReg rs - s.getReg rt))

/-- ADDI. `x[rt] <- (x[rs] + imm) mod 2^32` (R124). -/
def execAddi (rt rs : Reg) (imm : Word) (s : State) : Result :=
  .next (s.writeAndAdvance rt (s.getReg rs + imm))

/-- ADDIU. The same result as ADDI for every input (R125). -/
def execAddiu (rt rs : Reg) (imm : Word) (s : State) : Result :=
  .next (s.writeAndAdvance rt (s.getReg rs + imm))

end Sys2Proof.Machine
end

