-- ==== Sys2Proof/Machine/Flags.lean ====
section
/-! DEFINITION. CRISP-32 has no condition codes (10_state.md R26). What comparisons write to a register and branches test
directly is here (43_compare.md R154, 47_branch.md R197). -/

namespace Sys2Proof.Machine

/-- `signed_32(a) < signed_32(b)` (43_compare.md R150). -/
def ltSigned (a b : Word) : Bool := a.toInt < b.toInt

/-- `a < b` as numbers 0 to 2^32 - 1 (43_compare.md R151). -/
def ltUnsigned (a b : Word) : Bool := a.toNat < b.toNat

/-- The 32-bit value 1 or 0 that a comparison writes (43_compare.md R154). -/
def boolWord (b : Bool) : Word := if b then 1#32 else 0#32

/-- `signed_32(a) <= 0` (47_branch.md R192). -/
def leZero (a : Word) : Bool := a.toInt ≤ 0

/-- `signed_32(a) > 0` (47_branch.md R193). -/
def gtZero (a : Word) : Bool := 0 < a.toInt

/-- `signed_32(a) < 0` (47_branch.md R194). -/
def ltZero (a : Word) : Bool := a.toInt < 0

/-- `signed_32(a) >= 0` (47_branch.md R195). -/
def geZero (a : Word) : Bool := 0 ≤ a.toInt

end Sys2Proof.Machine
end

