-- ==== Sys2Proof/Machine/Branch.lean ====
section
/-! DEFINITION. The meanings of the branch operations (47_branch.md). No delay slot, no link, no exception of their own (R197). -/

namespace Sys2Proof.Machine

/-- BEQ. Taken when `x[rs] = x[rt]` (R190). -/
def execBeq (rs rt : Reg) (offset : Word) (s : State) : Result :=
  .next (s.branch (s.getReg rs == s.getReg rt) offset)

/-- BNE. Taken when `x[rs] != x[rt]` (R191). -/
def execBne (rs rt : Reg) (offset : Word) (s : State) : Result :=
  .next (s.branch (s.getReg rs != s.getReg rt) offset)

/-- BLEZ. Taken when `signed_32(x[rs]) <= 0` (R192). -/
def execBlez (rs : Reg) (offset : Word) (s : State) : Result :=
  .next (s.branch (leZero (s.getReg rs)) offset)

/-- BGTZ. Taken when `signed_32(x[rs]) > 0` (R193). -/
def execBgtz (rs : Reg) (offset : Word) (s : State) : Result :=
  .next (s.branch (gtZero (s.getReg rs)) offset)

/-- BLTZ. Taken when `signed_32(x[rs]) < 0` (R194). -/
def execBltz (rs : Reg) (offset : Word) (s : State) : Result :=
  .next (s.branch (ltZero (s.getReg rs)) offset)

/-- BGEZ. Taken when `signed_32(x[rs]) >= 0` (R195). -/
def execBgez (rs : Reg) (offset : Word) (s : State) : Result :=
  .next (s.branch (geZero (s.getReg rs)) offset)

end Sys2Proof.Machine
end

