-- ==== Sys2Proof/Machine/Compare.lean ====
section
/-! DEFINITION. The meanings of the comparison operations (43_compare.md): 1 or 0 into the destination (R154). -/

namespace Sys2Proof.Machine

/-- SLT. Signed less than (R150). -/
def execSlt (rd rs rt : Reg) (s : State) : Result :=
  .next (s.writeAndAdvance rd (boolWord (ltSigned (s.getReg rs) (s.getReg rt))))

/-- SLTU. Unsigned less than (R151). -/
def execSltu (rd rs rt : Reg) (s : State) : Result :=
  .next (s.writeAndAdvance rd (boolWord (ltUnsigned (s.getReg rs) (s.getReg rt))))

/-- SLTI. Signed less than the immediate (R152; log 37). -/
def execSlti (rt rs : Reg) (imm : Word) (s : State) : Result :=
  .next (s.writeAndAdvance rt (boolWord (ltSigned (s.getReg rs) imm)))

/-- SLTIU. Unsigned less than the immediate (R153). -/
def execSltiu (rt rs : Reg) (imm : Word) (s : State) : Result :=
  .next (s.writeAndAdvance rt (boolWord (ltUnsigned (s.getReg rs) imm)))

end Sys2Proof.Machine
end

