-- ==== Sys2Proof/Machine/Jump.lean ====
section
/-! DEFINITION. The meanings of the jump operations (48_jump.md). A bad target is found by the next fetch (R205). -/

namespace Sys2Proof.Machine

/-- J. `pc <- imm` (R200). -/
def execJ (target : Word) (s : State) : Result :=
  .next (s.jump target)

/-- JAL. `x[31] <- (pc + 8) mod 2^32; pc <- imm` (R201). -/
def execJal (target : Word) (s : State) : Result :=
  .next ((s.setReg 31 s.link).jump target)

/-- JR. `pc <- x[rs]` (R202). -/
def execJr (rs : Reg) (s : State) : Result :=
  .next (s.jump (s.getReg rs))

/-- JALR. `t <- x[rs]; x[rd] <- (pc + 8) mod 2^32; pc <- t` for rd different from rs; the spec gives JALR with rd = rs no
meaning and has a model refuse it (R203, D21; log 24). -/
def execJalr (rd rs : Reg) (s : State) : Result :=
  if rd = rs then .refused .jalrSameRegister
  else .next ((s.setReg rd s.link).jump (s.getReg rs))

end Sys2Proof.Machine
end

