-- ==== Sys2Proof/Machine/Load.lean ====
section
/-! DEFINITION. The meanings of the load operations (45_load.md): base plus offset, with the exceptions of R176. -/

namespace Sys2Proof.Machine

/-- LW. `x[rt] <- MemRead(ea, 4)` (R170). -/
def execLw (rt : Reg) (offset : Word) (rs : Reg) (s : State) : Result :=
  .next (s.load rt (s.effectiveAddress rs offset) 4 id)

/-- LH. `x[rt] <- sext_16(MemRead(ea, 2))` (R171). -/
def execLh (rt : Reg) (offset : Word) (rs : Reg) (s : State) : Result :=
  .next (s.load rt (s.effectiveAddress rs offset) 2 sext16)

/-- LHU. `x[rt] <- zext_16(MemRead(ea, 2))` (R172). -/
def execLhu (rt : Reg) (offset : Word) (rs : Reg) (s : State) : Result :=
  .next (s.load rt (s.effectiveAddress rs offset) 2 zext16)

/-- LB. `x[rt] <- sext_8(MemRead(ea, 1))` (R173). -/
def execLb (rt : Reg) (offset : Word) (rs : Reg) (s : State) : Result :=
  .next (s.load rt (s.effectiveAddress rs offset) 1 sext8)

/-- LBU. `x[rt] <- zext_8(MemRead(ea, 1))` (R174). -/
def execLbu (rt : Reg) (offset : Word) (rs : Reg) (s : State) : Result :=
  .next (s.load rt (s.effectiveAddress rs offset) 1 zext8)

end Sys2Proof.Machine
end

