-- ==== Sys2Proof/Machine/Logical.lean ====
section
/-! DEFINITION. The meanings of the logical operations (41_logical.md). The immediate forms use all 32 bits (R139; log 31). -/

namespace Sys2Proof.Machine

/-- AND. `x[rd] <- x[rs] & x[rt]` (R130). -/
def execAnd (rd rs rt : Reg) (s : State) : Result :=
  .next (s.writeAndAdvance rd (s.getReg rs &&& s.getReg rt))

/-- OR. `x[rd] <- x[rs] | x[rt]` (R131). -/
def execOr (rd rs rt : Reg) (s : State) : Result :=
  .next (s.writeAndAdvance rd (s.getReg rs ||| s.getReg rt))

/-- XOR. `x[rd] <- x[rs] ^ x[rt]` (R132). -/
def execXor (rd rs rt : Reg) (s : State) : Result :=
  .next (s.writeAndAdvance rd (s.getReg rs ^^^ s.getReg rt))

/-- NOR. `x[rd] <- 0xFFFFFFFF ^ (x[rs] | x[rt])` (R133). -/
def execNor (rd rs rt : Reg) (s : State) : Result :=
  .next (s.writeAndAdvance rd (~~~(s.getReg rs ||| s.getReg rt)))

/-- ANDI. `x[rt] <- x[rs] & imm` (R134). -/
def execAndi (rt rs : Reg) (imm : Word) (s : State) : Result :=
  .next (s.writeAndAdvance rt (s.getReg rs &&& imm))

/-- ORI. `x[rt] <- x[rs] | imm` (R135). -/
def execOri (rt rs : Reg) (imm : Word) (s : State) : Result :=
  .next (s.writeAndAdvance rt (s.getReg rs ||| imm))

/-- XORI. `x[rt] <- x[rs] ^ imm` (R136). -/
def execXori (rt rs : Reg) (imm : Word) (s : State) : Result :=
  .next (s.writeAndAdvance rt (s.getReg rs ^^^ imm))

/-- LUI. `x[rt] <- (imm * 2^16) mod 2^32` (R137). -/
def execLui (rt : Reg) (imm : Word) (s : State) : Result :=
  .next (s.writeAndAdvance rt (upperImmediate imm))

end Sys2Proof.Machine
end

