-- ==== Sys2Proof/Machine/MulDiv.lean ====
section
/-! DEFINITION. The meanings of multiplication and division (44_muldiv.md). One 32-bit result each, no HI/LO (R167). -/

namespace Sys2Proof.Machine

/-- MUL. `x[rd] <- (x[rs] * x[rt]) mod 2^32` (R160). -/
def execMul (rd rs rt : Reg) (s : State) : Result :=
  .next (s.writeAndAdvance rd (s.getReg rs * s.getReg rt))

/-- MULH. The high word of the signed product (R161). -/
def execMulh (rd rs rt : Reg) (s : State) : Result :=
  .next (s.writeAndAdvance rd (mulHighSigned (s.getReg rs) (s.getReg rt)))

/-- MULHU. The high word of the unsigned product (R162). -/
def execMulhu (rd rs rt : Reg) (s : State) : Result :=
  .next (s.writeAndAdvance rd (mulHighUnsigned (s.getReg rs) (s.getReg rt)))

/-- DIV. The signed quotient (R163). -/
def execDiv (rd rs rt : Reg) (s : State) : Result :=
  .next (s.writeAndAdvance rd (divSigned (s.getReg rs) (s.getReg rt)))

/-- DIVU. The unsigned quotient (R164). -/
def execDivu (rd rs rt : Reg) (s : State) : Result :=
  .next (s.writeAndAdvance rd (divUnsigned (s.getReg rs) (s.getReg rt)))

/-- REM. The signed remainder (R165). -/
def execRem (rd rs rt : Reg) (s : State) : Result :=
  .next (s.writeAndAdvance rd (remSigned (s.getReg rs) (s.getReg rt)))

/-- REMU. The unsigned remainder (R166). -/
def execRemu (rd rs rt : Reg) (s : State) : Result :=
  .next (s.writeAndAdvance rd (remUnsigned (s.getReg rs) (s.getReg rt)))

end Sys2Proof.Machine
end

