-- ==== Sys2Proof/Machine/Shift.lean ====
section
/-! DEFINITION. The meanings of the shift operations (42_shift.md). The value is in rt, the amount in the immediate or in rs (R147). -/

namespace Sys2Proof.Machine

/-- SLL. `x[rd] <- (x[rt] * 2^sa) mod 2^32` (R140). -/
def execSll (rd rt : Reg) (amount : Word) (s : State) : Result :=
  .next (s.writeAndAdvance rd (shiftLeft (s.getReg rt) amount))

/-- SRL. `x[rd] <- floor(x[rt] / 2^sa)` (R141). -/
def execSrl (rd rt : Reg) (amount : Word) (s : State) : Result :=
  .next (s.writeAndAdvance rd (shiftRightLogical (s.getReg rt) amount))

/-- SRA. `x[rd] <- floor(signed_32(x[rt]) / 2^sa) mod 2^32` (R142). -/
def execSra (rd rt : Reg) (amount : Word) (s : State) : Result :=
  .next (s.writeAndAdvance rd (shiftRightArith (s.getReg rt) amount))

/-- SLLV. SLL by the amount in rs (R143). -/
def execSllv (rd rt rs : Reg) (s : State) : Result :=
  .next (s.writeAndAdvance rd (shiftLeft (s.getReg rt) (s.getReg rs)))

/-- SRLV. SRL by the amount in rs (R144). -/
def execSrlv (rd rt rs : Reg) (s : State) : Result :=
  .next (s.writeAndAdvance rd (shiftRightLogical (s.getReg rt) (s.getReg rs)))

/-- SRAV. SRA by the amount in rs (R145). -/
def execSrav (rd rt rs : Reg) (s : State) : Result :=
  .next (s.writeAndAdvance rd (shiftRightArith (s.getReg rt) (s.getReg rs)))

end Sys2Proof.Machine
end

