-- ==== Sys2Proof/Machine/Store.lean ====
section
/-! DEFINITION. The meanings of the store operations (46_store.md): base plus offset, with the exceptions of R184. -/

namespace Sys2Proof.Machine

/-- SW. `MemWrite(ea, 4, x[rt])` (R180). -/
def execSw (rt : Reg) (offset : Word) (rs : Reg) (s : State) : Result :=
  .next (s.store (s.effectiveAddress rs offset) 4 (s.getReg rt))

/-- SH. `MemWrite(ea, 2, x[rt][15:0])` (R181). -/
def execSh (rt : Reg) (offset : Word) (rs : Reg) (s : State) : Result :=
  .next (s.store (s.effectiveAddress rs offset) 2 (s.getReg rt))

/-- SB. `MemWrite(ea, 1, x[rt][7:0])` (R182). -/
def execSb (rt : Reg) (offset : Word) (rs : Reg) (s : State) : Result :=
  .next (s.store (s.effectiveAddress rs offset) 1 (s.getReg rt))

end Sys2Proof.Machine
end

