-- ==== Sys2Proof/Machine/System.lean ====
section
/-! DEFINITION. The meanings of the system, interrupt-control, privilege and MMU-control operations (49_system.md). -/

namespace Sys2Proof.Machine

/-- SYSCALL. `raise Trap(4)`; the machine ignores the code (R210, D22; log 25). -/
def execSyscall (_code : Word) (s : State) : Result :=
  .next (s.raiseTrap IntNum.syscall)

/-- BREAK. `raise Trap(5)`; the machine ignores the code (R211, D22; log 25). -/
def execBrk (_code : Word) (s : State) : Result :=
  .next (s.raiseTrap IntNum.brk)

/-- NOP. Only the pc advances (R212). -/
def execNop (s : State) : Result :=
  .next s.advance

/-- EI. `int_enabled <- 1`, privileged (R213). -/
def execEi (s : State) : Result :=
  .next (s.privileged { s with intEnabled := true }.advance)

/-- DI. `int_enabled <- 0`, privileged (R214). -/
def execDi (s : State) : Result :=
  .next (s.privileged { s with intEnabled := false }.advance)

/-- IRET. Return from the last dispatch, privileged (R215). In kernel mode with no dispatch outstanding, before any dispatch
or after the IRET that ended the last one, the spec gives it no meaning and has a model refuse it (R215, U9, D27; log 22). -/
def execIret (s : State) : Result :=
  if s.kernelMode && !s.outstanding then .refused .iretOutsideDispatch
  else .next (s.privileged s.returnFromInterrupt)

/-- RAISE. `pending[imm] <- 1` for imm of 0 to 255, in any mode; the spec gives an immediate above 255 no meaning and has a
model refuse it (R216, D22; log 25). -/
def execRaise (intNum : Word) (s : State) : Result :=
  if h : intNum.toNat < 256 then .next (s.pend ⟨intNum.toNat, h⟩).advance
  else .refused .raiseNumberAbove255

/-- GETPC. `x[rd] <- saved_pc` (R217; log 22). -/
def execGetpc (rd : Reg) (s : State) : Result :=
  .next (s.writeAndAdvance rd s.savedPc)

/-- ENABLE_PAGING. `paging_enabled <- 1`, privileged (R218). -/
def execEnablePaging (s : State) : Result :=
  .next (s.privileged { s with pagingEnabled := true }.advance)

/-- DISABLE_PAGING. `paging_enabled <- 0`, privileged (R219). -/
def execDisablePaging (s : State) : Result :=
  .next (s.privileged { s with pagingEnabled := false }.advance)

/-- SET_PTBR. `page_table_base <- x[rd]; num_pages <- x[rt]`, privileged; both fields name source registers (R220). -/
def execSetPtbr (rd rt : Reg) (s : State) : Result :=
  .next (s.privileged { s with pageTableBase := s.getReg rd, numPages := s.getReg rt }.advance)

/-- ENTER_USER. `kernel_mode <- 0`, privileged; execution goes on at the next instruction (R221). -/
def execEnterUser (s : State) : Result :=
  .next (s.privileged { s with kernelMode := false }.advance)

/-- GETMODE. `x[rd] <- zext_1(kernel_mode)` (R222). -/
def execGetmode (rd : Reg) (s : State) : Result :=
  .next (s.writeAndAdvance rd (boolWord s.kernelMode))

end Sys2Proof.Machine
end

