-- ==== Sys2Proof/Machine/Dispatch.lean ====
section
/-! DEFINITION. exec: one arm per constructor of Instr, each one direct call of its meaning. -/

namespace Sys2Proof.Machine

def exec (i : Instr) (s : State) : Host.Outcome State Fault Refusal :=
  match i with
  | .nop => Sys2Proof.Machine.execNop s
  | .add rd rs rt => Sys2Proof.Machine.execAdd rd rs rt s
  | .addu rd rs rt => Sys2Proof.Machine.execAddu rd rs rt s
  | .sub rd rs rt => Sys2Proof.Machine.execSub rd rs rt s
  | .subu rd rs rt => Sys2Proof.Machine.execSubu rd rs rt s
  | .addi rt rs imm => Sys2Proof.Machine.execAddi rt rs imm s
  | .addiu rt rs imm => Sys2Proof.Machine.execAddiu rt rs imm s
  | .and rd rs rt => Sys2Proof.Machine.execAnd rd rs rt s
  | .or rd rs rt => Sys2Proof.Machine.execOr rd rs rt s
  | .xor rd rs rt => Sys2Proof.Machine.execXor rd rs rt s
  | .nor rd rs rt => Sys2Proof.Machine.execNor rd rs rt s
  | .andi rt rs imm => Sys2Proof.Machine.execAndi rt rs imm s
  | .ori rt rs imm => Sys2Proof.Machine.execOri rt rs imm s
  | .xori rt rs imm => Sys2Proof.Machine.execXori rt rs imm s
  | .lui rt imm => Sys2Proof.Machine.execLui rt imm s
  | .sll rd rt amount => Sys2Proof.Machine.execSll rd rt amount s
  | .srl rd rt amount => Sys2Proof.Machine.execSrl rd rt amount s
  | .sra rd rt amount => Sys2Proof.Machine.execSra rd rt amount s
  | .sllv rd rt rs => Sys2Proof.Machine.execSllv rd rt rs s
  | .srlv rd rt rs => Sys2Proof.Machine.execSrlv rd rt rs s
  | .srav rd rt rs => Sys2Proof.Machine.execSrav rd rt rs s
  | .slt rd rs rt => Sys2Proof.Machine.execSlt rd rs rt s
  | .sltu rd rs rt => Sys2Proof.Machine.execSltu rd rs rt s
  | .slti rt rs imm => Sys2Proof.Machine.execSlti rt rs imm s
  | .sltiu rt rs imm => Sys2Proof.Machine.execSltiu rt rs imm s
  | .mul rd rs rt => Sys2Proof.Machine.execMul rd rs rt s
  | .mulh rd rs rt => Sys2Proof.Machine.execMulh rd rs rt s
  | .mulhu rd rs rt => Sys2Proof.Machine.execMulhu rd rs rt s
  | .div rd rs rt => Sys2Proof.Machine.execDiv rd rs rt s
  | .divu rd rs rt => Sys2Proof.Machine.execDivu rd rs rt s
  | .rem rd rs rt => Sys2Proof.Machine.execRem rd rs rt s
  | .remu rd rs rt => Sys2Proof.Machine.execRemu rd rs rt s
  | .lw rt offset rs => Sys2Proof.Machine.execLw rt offset rs s
  | .lh rt offset rs => Sys2Proof.Machine.execLh rt offset rs s
  | .lhu rt offset rs => Sys2Proof.Machine.execLhu rt offset rs s
  | .lb rt offset rs => Sys2Proof.Machine.execLb rt offset rs s
  | .lbu rt offset rs => Sys2Proof.Machine.execLbu rt offset rs s
  | .sw rt offset rs => Sys2Proof.Machine.execSw rt offset rs s
  | .sh rt offset rs => Sys2Proof.Machine.execSh rt offset rs s
  | .sb rt offset rs => Sys2Proof.Machine.execSb rt offset rs s
  | .beq rs rt offset => Sys2Proof.Machine.execBeq rs rt offset s
  | .bne rs rt offset => Sys2Proof.Machine.execBne rs rt offset s
  | .blez rs offset => Sys2Proof.Machine.execBlez rs offset s
  | .bgtz rs offset => Sys2Proof.Machine.execBgtz rs offset s
  | .bltz rs offset => Sys2Proof.Machine.execBltz rs offset s
  | .bgez rs offset => Sys2Proof.Machine.execBgez rs offset s
  | .j target => Sys2Proof.Machine.execJ target s
  | .jal target => Sys2Proof.Machine.execJal target s
  | .jr rs => Sys2Proof.Machine.execJr rs s
  | .jalr rd rs => Sys2Proof.Machine.execJalr rd rs s
  | .syscall code => Sys2Proof.Machine.execSyscall code s
  | .brk code => Sys2Proof.Machine.execBrk code s
  | .ei => Sys2Proof.Machine.execEi s
  | .di => Sys2Proof.Machine.execDi s
  | .iret => Sys2Proof.Machine.execIret s
  | .raise intNum => Sys2Proof.Machine.execRaise intNum s
  | .getpc rd => Sys2Proof.Machine.execGetpc rd s
  | .enablePaging => Sys2Proof.Machine.execEnablePaging s
  | .disablePaging => Sys2Proof.Machine.execDisablePaging s
  | .setPtbr rd rt => Sys2Proof.Machine.execSetPtbr rd rt s
  | .enterUser => Sys2Proof.Machine.execEnterUser s
  | .getmode rd => Sys2Proof.Machine.execGetmode rd s

end Sys2Proof.Machine
end

