-- ==== Sys2Proof/Machine/Cycle.lean ====
section
/-! DEFINITION. The execution cycle (60_exceptions.md R230, R231): interrupt check, fetch, decode, execute. -/

namespace Sys2Proof.Machine

/-- Steps 5 to 8 of the cycle on the bytes fetched: decode and execute (60_exceptions.md R231). -/
def State.executeBytes (s : State) (bytes : List Byte) : Result :=
  match decode bytes with
  | .ok i => exec i s
  | .error e => s.onReject e

/-- Steps 2 to 8 of the cycle: fetch, with its stops and faults, then decode and execute (60_exceptions.md R231). -/
def State.fetchExecute (s : State) : Result :=
  match s.fetch with
  | .stop reason => .next (s.stop reason)
  | .fault n => .next (s.raiseFault n)
  | .bytes bs => s.executeBytes bs

/-- One cycle of a running machine: the interrupt check and, unless a dispatch stopped the machine, the instruction at the
pc, in the same cycle (60_exceptions.md R231, D28; log 30). A dispatch that would nest has no meaning and is refused (R257,
D19; log 21). -/
def State.cycle (s : State) : Result :=
  if s.nests then .refused .nestedDispatch
  else if s.interruptCheck.running then s.interruptCheck.fetchExecute
  else .next s.interruptCheck

/-- One step: a cycle while `running` = 1; a stopped machine takes none (60_exceptions.md R231, R245; log 32). -/
def State.stepOrStopped (s : State) : Result :=
  if s.running then s.cycle else .fault (.stopped s.stopReason)

/-- The physical address an instruction at the pc is fetched from, where the fetch does not fault. -/
def State.fetchAddress (s : State) : Nat :=
  match s.translate s.pc .exec with
  | .ok pa => pa.toNat
  | .error _ => s.pc.toNat

/-- The state with eight bytes stored where the next fetch at the pc reads them (log 6). -/
def State.placeAtFetch (s : State) (bytes : List Byte) : State :=
  { s with mem := s.mem.writeBytes s.fetchAddress bytes }

end Sys2Proof.Machine
end

