-- ==== Sys2Proof/Machine/Step.lean ====
section
/-! DEFINITION. The step of the machine, and the placing of one instruction where step fetches it. -/

namespace Sys2Proof.Machine

/-- One step of the machine (60_exceptions.md R231). -/
def step (s : State) : Host.Outcome State Fault Refusal := s.stepOrStopped

/-- The state with the table's word `w` of `nbits` bits stored at the pc, as the load of an image from outside the machine
would leave it (70_reset_and_hazards.md R283; log 6). Where no interrupt is due and the fetch at the pc does not fault,
the next step runs exactly that instruction. -/
def State.withFetchWord (s : State) (nbits w : Nat) : State := s.placeAtFetch (tableWordBytes nbits w)

end Sys2Proof.Machine
end

