-- ==== Sys2Proof/Machine/Assembly.lean ====
section
/-! DEFINITION. What an assembler writes: mnemonics and operands in the order of 30_encoding.md R96 and R100, label operands
(47_branch.md R196), and the pseudo-instructions (R102). -/

namespace Sys2Proof.Machine

/-- The software name of a register: a convention, not enforced by the machine (10_state.md R23, 30_encoding.md R101). -/
def softwareName (r : Reg) : String :=
  #v["zero", "at", "v0", "v1", "a0", "a1", "a2", "a3", "t0", "t1", "t2", "t3", "t4", "t5", "t6", "t7",
     "s0", "s1", "s2", "s3", "s4", "s5", "s6", "s7", "t8", "t9", "k0", "k1", "gp", "sp", "fp", "ra"][r]

/-- One operand of an assembler line (30_encoding.md R100). -/
inductive Operand where
  /-- `R0` to `R31`. -/
  | reg (r : Reg)
  /-- A number, decimal or hexadecimal, or a label. -/
  | imm (v : Word)
  /-- `offset(Rn)`. -/
  | mem (offset : Word) (base : Reg)
  deriving DecidableEq, Repr

/-- The mnemonic of the opcode map (30_encoding.md R96). -/
def mnemonic : Instr → String
  | .nop => "NOP"
  | .add _ _ _ => "ADD"
  | .addu _ _ _ => "ADDU"
  | .sub _ _ _ => "SUB"
  | .subu _ _ _ => "SUBU"
  | .addi _ _ _ => "ADDI"
  | .addiu _ _ _ => "ADDIU"
  | .and _ _ _ => "AND"
  | .or _ _ _ => "OR"
  | .xor _ _ _ => "XOR"
  | .nor _ _ _ => "NOR"
  | .andi _ _ _ => "ANDI"
  | .ori _ _ _ => "ORI"
  | .xori _ _ _ => "XORI"
  | .lui _ _ => "LUI"
  | .sll _ _ _ => "SLL"
  | .srl _ _ _ => "SRL"
  | .sra _ _ _ => "SRA"
  | .sllv _ _ _ => "SLLV"
  | .srlv _ _ _ => "SRLV"
  | .srav _ _ _ => "SRAV"
  | .slt _ _ _ => "SLT"
  | .sltu _ _ _ => "SLTU"
  | .slti _ _ _ => "SLTI"
  | .sltiu _ _ _ => "SLTIU"
  | .mul _ _ _ => "MUL"
  | .mulh _ _ _ => "MULH"
  | .mulhu _ _ _ => "MULHU"
  | .div _ _ _ => "DIV"
  | .divu _ _ _ => "DIVU"
  | .rem _ _ _ => "REM"
  | .remu _ _ _ => "REMU"
  | .lw _ _ _ => "LW"
  | .lh _ _ _ => "LH"
  | .lhu _ _ _ => "LHU"
  | .lb _ _ _ => "LB"
  | .lbu _ _ _ => "LBU"
  | .sw _ _ _ => "SW"
  | .sh _ _ _ => "SH"
  | .sb _ _ _ => "SB"
  | .beq _ _ _ => "BEQ"
  | .bne _ _ _ => "BNE"
  | .blez _ _ => "BLEZ"
  | .bgtz _ _ => "BGTZ"
  | .bltz _ _ => "BLTZ"
  | .bgez _ _ => "BGEZ"
  | .j _ => "J"
  | .jal _ => "JAL"
  | .jr _ => "JR"
  | .jalr _ _ => "JALR"
  | .syscall _ => "SYSCALL"
  | .brk _ => "BREAK"
  | .ei => "EI"
  | .di => "DI"
  | .iret => "IRET"
  | .raise _ => "RAISE"
  | .getpc _ => "GETPC"
  | .enablePaging => "ENABLE_PAGING"
  | .disablePaging => "DISABLE_PAGING"
  | .setPtbr _ _ => "SET_PTBR"
  | .enterUser => "ENTER_USER"
  | .getmode _ => "GETMODE"

/-- The operands in the order of the syntax column (30_encoding.md R96, R100). -/
def operands : Instr → List Operand
  | .nop => []
  | .add rd rs rt => [.reg rd, .reg rs, .reg rt]
  | .addu rd rs rt => [.reg rd, .reg rs, .reg rt]
  | .sub rd rs rt => [.reg rd, .reg rs, .reg rt]
  | .subu rd rs rt => [.reg rd, .reg rs, .reg rt]
  | .addi rt rs imm => [.reg rt, .reg rs, .imm imm]
  | .addiu rt rs imm => [.reg rt, .reg rs, .imm imm]
  | .and rd rs rt => [.reg rd, .reg rs, .reg rt]
  | .or rd rs rt => [.reg rd, .reg rs, .reg rt]
  | .xor rd rs rt => [.reg rd, .reg rs, .reg rt]
  | .nor rd rs rt => [.reg rd, .reg rs, .reg rt]
  | .andi rt rs imm => [.reg rt, .reg rs, .imm imm]
  | .ori rt rs imm => [.reg rt, .reg rs, .imm imm]
  | .xori rt rs imm => [.reg rt, .reg rs, .imm imm]
  | .lui rt imm => [.reg rt, .imm imm]
  | .sll rd rt amount => [.reg rd, .reg rt, .imm amount]
  | .srl rd rt amount => [.reg rd, .reg rt, .imm amount]
  | .sra rd rt amount => [.reg rd, .reg rt, .imm amount]
  | .sllv rd rt rs => [.reg rd, .reg rt, .reg rs]
  | .srlv rd rt rs => [.reg rd, .reg rt, .reg rs]
  | .srav rd rt rs => [.reg rd, .reg rt, .reg rs]
  | .slt rd rs rt => [.reg rd, .reg rs, .reg rt]
  | .sltu rd rs rt => [.reg rd, .reg rs, .reg rt]
  | .slti rt rs imm => [.reg rt, .reg rs, .imm imm]
  | .sltiu rt rs imm => [.reg rt, .reg rs, .imm imm]
  | .mul rd rs rt => [.reg rd, .reg rs, .reg rt]
  | .mulh rd rs rt => [.reg rd, .reg rs, .reg rt]
  | .mulhu rd rs rt => [.reg rd, .reg rs, .reg rt]
  | .div rd rs rt => [.reg rd, .reg rs, .reg rt]
  | .divu rd rs rt => [.reg rd, .reg rs, .reg rt]
  | .rem rd rs rt => [.reg rd, .reg rs, .reg rt]
  | .remu rd rs rt => [.reg rd, .reg rs, .reg rt]
  | .lw rt offset rs => [.reg rt, .mem offset rs]
  | .lh rt offset rs => [.reg rt, .mem offset rs]
  | .lhu rt offset rs => [.reg rt, .mem offset rs]
  | .lb rt offset rs => [.reg rt, .mem offset rs]
  | .lbu rt offset rs => [.reg rt, .mem offset rs]
  | .sw rt offset rs => [.reg rt, .mem offset rs]
  | .sh rt offset rs => [.reg rt, .mem offset rs]
  | .sb rt offset rs => [.reg rt, .mem offset rs]
  | .beq rs rt offset => [.reg rs, .reg rt, .imm offset]
  | .bne rs rt offset => [.reg rs, .reg rt, .imm offset]
  | .blez rs offset => [.reg rs, .imm offset]
  | .bgtz rs offset => [.reg rs, .imm offset]
  | .bltz rs offset => [.reg rs, .imm offset]
  | .bgez rs offset => [.reg rs, .imm offset]
  | .j target => [.imm target]
  | .jal target => [.imm target]
  | .jr rs => [.reg rs]
  | .jalr rd rs => [.reg rd, .reg rs]
  | .syscall code => [.imm code]
  | .brk code => [.imm code]
  | .ei => []
  | .di => []
  | .iret => []
  | .raise intNum => [.imm intNum]
  | .getpc rd => [.reg rd]
  | .enablePaging => []
  | .disablePaging => []
  | .setPtbr rd rt => [.reg rd, .reg rt]
  | .enterUser => []
  | .getmode rd => [.reg rd]

/-- The offset that a label operand of a branch stands for: the label's address less the branch's own (47_branch.md R196). -/
def branchOffset (label branchAddress : Word) : Word := label - branchAddress

/-- The pseudo-instructions, "assembler conveniences, not real instructions" (30_encoding.md R102). -/
inductive Pseudo where
  | mov (rd rs : Reg)
  | li (rt : Reg) (imm : Word)
  | la (rt : Reg) (addr : Word)
  | not (rd rs : Reg)
  | b (offset : Word)
  | bal (offset : Word)
  deriving DecidableEq, Repr

/-- The real instructions a pseudo-instruction stands for (30_encoding.md R102). BAL's expansion does not link (C9). -/
def expand : Pseudo → List Instr
  | .mov rd rs => [.or rd rs 0]
  | .li rt imm => [.ori rt 0 imm]
  | .la rt addr => [.lui rt ((addr.extractLsb' 16 16).setWidth 32), .ori rt rt ((addr.extractLsb' 0 16).setWidth 32)]
  | .not rd rs => [.nor rd rs 0]
  | .b offset => [.beq 0 0 offset]
  | .bal offset => [.bgez 0 offset]

end Sys2Proof.Machine
end

