-- ==== Sys2Proof/Machine/Environment.lean ====
section
/-! DEFINITION. What the host does to the machine (70_reset_and_hazards.md R286), between two cycles and never inside one
(20_memory.md R81, D25). `step` itself takes no input: an action changes the state that the next step starts from. -/

namespace Sys2Proof.Machine

/-- What the host can write into one field of the structure (70_reset_and_hazards.md R286, last row): every piece of state of
10_state.md R20 but memory's bytes, which `EnvAction` writes. -/
inductive FieldWrite where
  /-- A general register; R0 stays 0 (10_state.md R21; log 36). -/
  | reg (r : Reg) (v : Word)
  | pc (v : Word)
  /-- `memory_size`: the bytes that still lie in memory keep their values (log 36). -/
  | memSize (size : Word)
  /-- 1 starts the machine, a stopped one again (10_state.md R35, R36); 0 stops it (log 36). -/
  | running (b : Bool)
  | kernelMode (b : Bool)
  | pagingEnabled (b : Bool)
  | pageTableBase (v : Word)
  | numPages (v : Word)
  | intEnabled (b : Bool)
  | pending (n : IntNum) (b : Bool)
  | savedPc (v : Word)
  | savedRegsAddr (v : Word)
  | savedMode (b : Bool)
  deriving DecidableEq, Repr

/-- The state with the one field written. The model's own fields follow: the stop's label with `running`, and a dispatch
that is outstanding stays so (log 36). -/
def FieldWrite.apply (w : FieldWrite) (s : State) : State :=
  match w with
  | .reg r v => s.setReg r v
  | .pc v => s.jump v
  | .memSize size => { s with memSize := size, mem := s.mem.truncate size.toNat }
  | .running true => { s with running := true, stopReason := none }
  | .running false => if s.running then s.stop .byHost else s
  | .kernelMode b => { s with kernelMode := b }
  | .pagingEnabled b => { s with pagingEnabled := b }
  | .pageTableBase v => { s with pageTableBase := v }
  | .numPages v => { s with numPages := v }
  | .intEnabled b => { s with intEnabled := b }
  | .pending n b => { s with pending := s.pending.set n b }
  | .savedPc v => { s with savedPc := v }
  | .savedRegsAddr v => { s with savedRegsAddr := v }
  | .savedMode b => { s with savedMode := b }

/-- The host's actions (70_reset_and_hazards.md R286). Reading a field or a byte changes nothing and is no action. -/
inductive EnvAction where
  /-- Allocate memory: fixes MEM_SIZE and a memory that nothing has written yet. -/
  | allocate (size : Word)
  /-- Load a binary: the image's bytes from the chosen offset (30_encoding.md R103). -/
  | loadImage (offset : Nat) (image : List Byte)
  /-- Set the entry point: `pc <- ENTRY_PC`. -/
  | setEntry (pc : Word)
  /-- `c32_set_interrupt_handler(vm, n, handler)`. -/
  | setHandler (n : IntNum) (handler : Word)
  /-- `vm->interrupts.enabled = 1`. -/
  | enableInterrupts
  /-- `c32_raise_interrupt(vm, n)` (60_exceptions.md R237, R242); n = 16 for a timer (R270). -/
  | raiseInterrupt (n : IntNum)
  /-- Write any field of the structure. -/
  | writeField (w : FieldWrite)
  /-- Write any byte of memory. -/
  | writeByte (a : Nat) (v : Byte)
  deriving DecidableEq, Repr

/-- The effect of an action (70_reset_and_hazards.md R286). Bytes outside memory do not exist: an image or a byte that does
not lie in memory is not written (log 36). -/
def EnvAction.apply (act : EnvAction) (s : State) : State :=
  match act with
  | .allocate size => { s with memSize := size, mem := [] }
  | .loadImage offset image =>
    if s.inBounds offset image.length then { s with mem := s.mem.writeBytes offset image } else s
  | .setEntry pc => s.jump pc
  | .setHandler n handler => if s.inBounds (ivtAddress n) 4 then s.physWrite (ivtAddress n) 4 handler else s
  | .enableInterrupts => { s with intEnabled := true }
  | .raiseInterrupt n => s.pend n
  | .writeField w => w.apply s
  | .writeByte a v => if s.inBounds a 1 then { s with mem := s.mem.write a v } else s

/-- A run in which the host acts before each cycle: one list of actions a cycle, ended by the first stop that answers no
next state (20_memory.md R81). -/
def runWithHost : List (List EnvAction) → State → Result
  | [], s => .next s
  | acts :: rest, s =>
    match step (acts.foldl (fun t act => act.apply t) s) with
    | .next t => runWithHost rest t
    | r => r

end Sys2Proof.Machine
end

