-- ==== Sys2Proof/Safety.lean ====
section
/-! DEFINITION. The terms claims are stated in: what an instruction leaves unchanged, the invariant of the machine, and orderly
and error stops. -/

namespace Sys2Proof.Safety

open Sys2Proof.Machine

/-! ## Frames -/

/-- Every general register reads as before. -/
def SameRegs (s t : State) : Prop := ∀ r, t.getReg r = s.getReg r

/-- Register rd reads v, unless it is R0, which discards the write (10_state.md R21); every other register reads as before. -/
def RegWritten (s t : State) (rd : Reg) (v : Word) : Prop :=
  ∀ r, t.getReg r = if r = rd ∧ r ≠ 0 then v else s.getReg r

/-- Every byte of memory reads as before, and memory has the same size. -/
def SameMem (s t : State) : Prop := t.memSize = s.memSize ∧ ∀ a, t.mem.read a = s.mem.read a

/-- The n bytes from pa up hold the low 8n bits of v, lowest byte first; every other byte of memory reads as before, and
memory has the same size (20_memory.md R51, R59). -/
def BytesWritten (s t : State) (pa n : Nat) (v : Word) : Prop :=
  t.memSize = s.memSize ∧
    ∀ a, t.mem.read a = if pa ≤ a ∧ a < pa + n then v.extractLsb' (8 * (a - pa)) 8 else s.mem.read a

/-- The paging registers are as before (10_state.md R29, R30). -/
def SamePaging (s t : State) : Prop :=
  t.pagingEnabled = s.pagingEnabled ∧ t.pageTableBase = s.pageTableBase ∧ t.numPages = s.numPages

/-- The registers a dispatch saves into are as before (10_state.md R32, R33). -/
def SameContext (s t : State) : Prop :=
  t.savedPc = s.savedPc ∧ t.savedRegsAddr = s.savedRegsAddr ∧ t.savedMode = s.savedMode

/-- The saved context is as before, and so is whether a dispatch is outstanding. -/
def SameSaved (s t : State) : Prop := SameContext s t ∧ t.outstanding = s.outstanding

/-- The machine is running or stopped as before (10_state.md R35). -/
def SameRunning (s t : State) : Prop := t.running = s.running ∧ t.stopReason = s.stopReason

/-- All control state is as before (10_state.md R28 to R35). -/
def SameControl (s t : State) : Prop :=
  SamePaging s t ∧ SameSaved s t ∧ SameRunning s t ∧
    t.kernelMode = s.kernelMode ∧ t.intEnabled = s.intEnabled ∧ t.pending = s.pending

/-- The whole effect of an instruction that writes one register and goes to the next instruction. -/
def WritesOnly (s t : State) (rd : Reg) (v : Word) : Prop :=
  RegWritten s t rd v ∧ t.pc = s.pc + 8#32 ∧ SameMem s t ∧ SameControl s t

/-- The whole effect of an instruction that only sets the pc. -/
def JumpsOnly (s t : State) (target : Word) : Prop :=
  t.pc = target ∧ SameRegs s t ∧ SameMem s t ∧ SameControl s t

/-- Exactly the pending bit n is set in t beyond those of s (60_exceptions.md R242). -/
def PendingSet (s t : State) (n : IntNum) : Prop :=
  ∀ m : IntNum, t.pending[m] = if m = n then true else s.pending[m]

/-- The machine has stopped for the reason (60_exceptions.md R245). -/
def Stopped (t : State) (reason : StopReason) : Prop := t.running = false ∧ t.stopReason = some reason

/-- `raise Fault(n)`: the pending bit is set and nothing else changes, the pc stays at the instruction; with interrupts
disabled the machine stops instead of going on (60_exceptions.md R240, D15). -/
def FaultRaised (s t : State) (n : IntNum) : Prop :=
  PendingSet s t n ∧ t.pc = s.pc ∧ SameRegs s t ∧ SameMem s t ∧ SamePaging s t ∧ SameSaved s t ∧
    t.kernelMode = s.kernelMode ∧ t.intEnabled = s.intEnabled ∧
    (s.intEnabled = true → SameRunning s t) ∧ (s.intEnabled = false → Stopped t (.undeliverable n))

/-- `raise Trap(n)`: as a fault, but the pc goes past the instruction (60_exceptions.md R241, D15). -/
def TrapRaised (s t : State) (n : IntNum) : Prop :=
  PendingSet s t n ∧ t.pc = s.pc + 8#32 ∧ SameRegs s t ∧ SameMem s t ∧ SamePaging s t ∧ SameSaved s t ∧
    t.kernelMode = s.kernelMode ∧ t.intEnabled = s.intEnabled ∧
    (s.intEnabled = true → SameRunning s t) ∧ (s.intEnabled = false → Stopped t (.undeliverable n))

/-- The instruction answers a next state, and the property holds of it. -/
def Completes (i : Instr) (s : State) (P : State → Prop) : Prop := ∃ t, exec i s = .next t ∧ P t

/-- No interrupt is dispatched in the cycle that begins here: interrupts are disabled or none is pending
(60_exceptions.md R232). -/
def NotDue (s : State) : Prop := s.intEnabled = false ∨ ∀ n : IntNum, s.pending[n] = false

/-- `LE(a, n)`: the sum over k below n of the byte at a + k times 2^(8k) (20_memory.md R51). -/
def littleEndian (s : State) (a n : Nat) : Nat :=
  ∑ k ∈ Finset.range n, (s.mem.read (a + k)).toNat * 2 ^ (8 * k)

/-! ## The page table, as numbers (20_memory.md R66 to R69) -/

/-- The entry for page N lies in memory: its address is `page_table_base + 4*N`. -/
def EntryInMemory (s : State) (page : Nat) : Prop := s.pageTableBase.toNat + 4 * page + 4 ≤ s.memSize.toNat

/-- The entry for page N as a number. -/
def pageEntry (s : State) (page : Nat) : Nat := littleEndian s (s.pageTableBase.toNat + 4 * page) 4

/-- The page has an entry in memory with V and U set: user mode may read it (20_memory.md R69). -/
def UserPage (s : State) (page : Nat) : Prop :=
  page < s.numPages.toNat ∧ EntryInMemory s page ∧
    (pageEntry s page).testBit 0 = true ∧ (pageEntry s page).testBit 3 = true

/-- The physical address lies in a page that user mode may read. -/
def UserReadable (s : State) (a : Nat) : Prop := ∃ page, UserPage s page ∧ a / 4096 = pageEntry s page / 4096

/-- The eight bytes hold the instruction in its encoding: opcode, rs, rt, rd and the immediate (30_encoding.md R90). -/
def Encodes (opcode rs rt rd : Byte) (imm : Word) (i : Instr) : Prop :=
  decode (Fields.toBytes ⟨opcode, rs, rt, rd, imm⟩) = .ok i

/-! ## The invariant -/

/-- What holds of the machine between cycles: memory in its canonical form and inside MEM_SIZE (20_memory.md R57), R0 at 0
(10_state.md R22), and a stop reason exactly when it has stopped (60_exceptions.md R245). -/
def MachineInv (s : State) : Prop :=
  s.mem.wf ∧ (∀ c ∈ s.mem, c.1 < s.memSize.toNat) ∧ s.regs[0] = 0#32 ∧ s.running = s.stopReason.isNone

/-! ## Stops -/

/-- The stops that are the usual end of a run: SYSCALL or BREAK that is not delivered or finds no handler; every other stop
of the machine's own is an error (60_exceptions.md R246, 70_reset_and_hazards.md R288). -/
def orderly : StopReason → Bool
  | .undeliverable n | .noHandler n => n = IntNum.syscall || n = IntNum.brk
  | .pcMisaligned | .pcOutOfBounds | .ivtOutOfBounds | .frameOutOfBounds | .byHost => false

end Sys2Proof.Safety
end

