-- ==== Sys2Proof/Certificates/Slice0/Obligations.lean ====
section
/-! DEFINITION. The statements for the provers, in the order of OBLIGATIONS.json. A docstring that says "the model's choice"
names the log entry or the spec's own decision that the statement rests on. -/

open Sys2Proof Sys2Proof.Machine Sys2Proof.Safety

namespace Sys2Proof.Certificates

/-! ## Terms used by the statements -/

/-- The 194 reserved opcodes, as the ranges of 30_encoding.md R97. -/
def reservedOpcodes : List Nat :=
  List.range' 0x07 9 ++ List.range' 0x18 8 ++ List.range' 0x26 10 ++ List.range' 0x34 12 ++ List.range' 0x47 9 ++
    List.range' 0x55 3 ++ List.range' 0x5B 5 ++ List.range' 0x66 10 ++ List.range' 0x74 124 ++ [0xFA] ++ List.range' 0xFD 3

/-- The opcodes whose rs field is used (30_encoding.md R96). -/
def usesRs : List Nat :=
  [0x01, 0x02, 0x03, 0x04, 0x05, 0x06, 0x10, 0x11, 0x12, 0x13, 0x14, 0x15, 0x16, 0x23, 0x24, 0x25, 0x30, 0x31, 0x32, 0x33,
   0x40, 0x41, 0x42, 0x43, 0x44, 0x45, 0x46, 0x50, 0x51, 0x52, 0x53, 0x54, 0x58, 0x59, 0x5A, 0x60, 0x61, 0x62, 0x63, 0x64,
   0x65, 0x72, 0x73]

/-- The opcodes whose rt field is used (30_encoding.md R96). -/
def usesRt : List Nat :=
  [0x01, 0x02, 0x03, 0x04, 0x05, 0x06, 0x10, 0x11, 0x12, 0x13, 0x14, 0x15, 0x16, 0x17, 0x20, 0x21, 0x22, 0x23, 0x24, 0x25,
   0x30, 0x31, 0x32, 0x33, 0x40, 0x41, 0x42, 0x43, 0x44, 0x45, 0x46, 0x50, 0x51, 0x52, 0x53, 0x54, 0x58, 0x59, 0x5A, 0x60,
   0x61, 0xF9]

/-- The opcodes whose rd field is used (30_encoding.md R96). -/
def usesRd : List Nat :=
  [0x01, 0x02, 0x03, 0x04, 0x10, 0x11, 0x12, 0x13, 0x20, 0x21, 0x22, 0x23, 0x24, 0x25, 0x30, 0x31, 0x40, 0x41, 0x42, 0x43,
   0x44, 0x45, 0x46, 0x73, 0xF6, 0xF9, 0xFC]

/-- The opcodes whose immediate is used (30_encoding.md R96). -/
def usesImm : List Nat :=
  [0x05, 0x06, 0x14, 0x15, 0x16, 0x17, 0x20, 0x21, 0x22, 0x32, 0x33, 0x50, 0x51, 0x52, 0x53, 0x54, 0x58, 0x59, 0x5A, 0x60,
   0x61, 0x62, 0x63, 0x64, 0x65, 0x70, 0x71, 0xF0, 0xF1, 0xF5]

/-- Every register field that the fields' opcode uses holds 0 to 31. -/
def UsedFieldsNameRegisters (f : Fields) : Prop :=
  (f.opcode.toNat ∈ usesRs → f.rs.toNat < 32) ∧ (f.opcode.toNat ∈ usesRt → f.rt.toNat < 32) ∧
    (f.opcode.toNat ∈ usesRd → f.rd.toNat < 32)

/-- The seven privileged instructions (60_exceptions.md R262). -/
def Privileged (i : Instr) : Prop :=
  i = .ei ∨ i = .di ∨ i = .iret ∨ i = .enablePaging ∨ i = .disablePaging ∨ i = .enterUser ∨ ∃ rd rt, i = .setPtbr rd rt

/-- Two states that differ at most in their bytes of memory. -/
def SameButBytes (s t : State) : Prop := t = { s with mem := t.mem }

/-- The number `x` sign-extended from n bits to 32 (00_scope.md R9). -/
def signExtended (n x : Nat) : Nat := if x < 2 ^ (n - 1) then x else x + 2 ^ 32 - 2 ^ n

/-- The registers, memory, the saved context, `running` and the pending bits are as before. -/
def SameBesidesFlags (s t : State) : Prop :=
  SameRegs s t ∧ SameMem s t ∧ SameSaved s t ∧ SameRunning s t ∧ t.pending = s.pending

/-- Each bit of v is the function f of the bits of a and b (41_logical.md R130). -/
def Bitwise (f : Bool → Bool → Bool) (a b v : Word) : Prop :=
  ∀ k, k < 32 → v.getLsbD k = f (a.getLsbD k) (b.getLsbD k)

/-- The saved context, which no instruction writes, and the memory size are as before. -/
def SameContextAndSize (s t : State) : Prop := SameContext s t ∧ t.memSize = s.memSize

/-- What a load or store of n bytes at an address raises: a memory fault if misaligned, else the fault of the translation,
else a memory fault if out of bounds (20_memory.md R62, R63). The spec's decisions D12, D13, D23 (log 15, 26). -/
def AccessRaises (s : State) (va : Word) (n : Nat) (acc : AccessKind) (k : IntNum) : Prop :=
  va.toNat % n ≠ 0 ∧ k = 2 ∨
    va.toNat % n = 0 ∧ (s.translate va acc = .error k ∨
      ∃ p, s.translate va acc = .ok p ∧ s.memSize.toNat < p.toNat + n ∧ k = 2)

end Sys2Proof.Certificates

open Sys2Proof.Certificates

/-! ## Encoding -/

/-- The worked encodings of the spec's Appendix B vectors, and one word of every other family, decode to the instruction
they stand for (30_encoding.md). -/
def Obligations.DecodeReadsWrittenOutWords : Prop :=
  decode [0x01, 0x0A, 0x0C, 0x05, 0, 0, 0, 0] = .ok (.add 5 10 12) ∧
  decode [0x05, 0x11, 0x03, 0x00, 0x2A, 0, 0, 0] = .ok (.addi 3 17 42) ∧
  decode [0x50, 0x02, 0x08, 0x00, 0x64, 0, 0, 0] = .ok (.lw 8 100 2) ∧
  decode [0x71, 0, 0, 0, 0x00, 0x10, 0, 0] = .ok (.jal 0x1000) ∧
  decode [0x13, 0x01, 0x00, 0x03, 0, 0, 0, 0] = .ok (.nor 3 1 0) ∧
  decode [0x23, 0x02, 0x01, 0x03, 0, 0, 0, 0] = .ok (.sllv 3 1 2) ∧
  decode [0x32, 0x01, 0x03, 0x00, 0xFF, 0xFF, 0xFF, 0xFF] = .ok (.slti 3 1 0xFFFFFFFF) ∧
  decode [0x46, 0x05, 0x06, 0x07, 0, 0, 0, 0] = .ok (.remu 7 5 6) ∧
  decode [0x5A, 0x09, 0x08, 0x00, 0x05, 0, 0, 0] = .ok (.sb 8 5 9) ∧
  decode [0x63, 0x08, 0, 0, 0xF0, 0xFF, 0xFF, 0xFF] = .ok (.bgtz 8 0xFFFFFFF0) ∧
  decode [0xF9, 0x00, 0x06, 0x05, 0, 0, 0, 0] = .ok (.setPtbr 5 6)

/-- Decoding the encoding of any instruction gives it back: eight bytes hold every operand (30_encoding.md R90 to R96). -/
def Obligations.DecodeInvertsEncode : Prop :=
  ∀ i : Instr, (encode i).length = 8 ∧ decode (encode i) = .ok i

/-- The reserved opcodes are 194, a fetched one raises interrupt 1 with the pc at it, and no other opcode is rejected as
reserved (30_encoding.md R97). What raising does is the spec's decision D15 (log 17). -/
def Obligations.ReservedOpcodesAreIllegal : Prop :=
  reservedOpcodes.length = 194 ∧ reservedOpcodes.Nodup ∧
  (∀ f : Fields, (∃ op, decodeFields f = .error (.reservedOpcode op)) ↔ f.opcode.toNat ∈ reservedOpcodes) ∧
  ∀ (s : State) (f : Fields), s.running = true → NotDue s → s.fetch = .bytes f.toBytes → f.opcode.toNat ∈ reservedOpcodes →
    ∃ t, step s = .next t ∧ FaultRaised s t 1

/-- Only the opcode and the fields that its row of R96 uses take part in decoding: unused fields are ignored. The spec's
decision D5 (log 8). -/
def Obligations.UnusedFieldsAreIgnored : Prop :=
  ∀ f g : Fields, f.opcode = g.opcode → (f.opcode.toNat ∈ usesRs → f.rs = g.rs) → (f.opcode.toNat ∈ usesRt → f.rt = g.rt) →
    (f.opcode.toNat ∈ usesRd → f.rd = g.rd) → (f.opcode.toNat ∈ usesImm → f.imm = g.imm) → decodeFields f = decodeFields g

/-- An assigned opcode decodes exactly when every register field it uses holds 0 to 31; where it does not, the machine
refuses by name, but for a privileged opcode in user mode, which raises interrupt 7. The spec's decisions D4 and D23 (log 7);
what raising does is D15 (log 17). -/
def Obligations.HighRegisterFieldsAreRefused : Prop :=
  ∀ f : Fields, f.opcode.toNat ∉ reservedOpcodes →
    (UsedFieldsNameRegisters f → ∃ i, decodeFields f = .ok i) ∧
    (¬ UsedFieldsNameRegisters f → ∀ s : State, s.running = true → NotDue s → s.fetch = .bytes f.toBytes →
      (s.kernelMode = true → ∃ b, 32 ≤ b.toNat ∧ step s = .refused (.registerFieldAbove31 f.opcode b)) ∧
      (s.kernelMode = false → f.opcode = 0xF9#8 → ∃ t, step s = .next t ∧ FaultRaised s t 7) ∧
      (s.kernelMode = false → f.opcode ≠ 0xF9#8 →
        ∃ b, 32 ≤ b.toNat ∧ step s = .refused (.registerFieldAbove31 f.opcode b)))

/-! ## The cycle -/

/-- A running machine executes the instruction its fetch gives; the interrupt check before it changes nothing unless an
interrupt is due, and the first instruction of a handler runs in the same step as a dispatch that does not nest: where the
dispatch does not stop the machine the step does what a step from the handler's first state does, and where it does stop it
the step ends there, with nothing fetched (60_exceptions.md R231, R234, D28; log 30; a nested dispatch is refused, log 21). -/
def Obligations.StepRunsDecodedInstruction : Prop :=
  (∀ (s : State) (bs : List Byte) (i : Instr), s.running = true → NotDue s → s.fetch = .bytes bs → decode bs = .ok i →
    step s = exec i s) ∧
  ∀ (s : State) (n : IntNum), s.running = true → s.outstanding = false → s.intEnabled = true → s.pending[n] = true →
    (∀ m : IntNum, m < n → s.pending[m] = false) →
    ((s.dispatch n).running = true →
      step s = step (s.dispatch n) ∧
      ∀ (bs : List Byte) (i : Instr), (s.dispatch n).fetch = .bytes bs → decode bs = .ok i → step s = exec i (s.dispatch n)) ∧
    ((s.dispatch n).running = false → step s = .next (s.dispatch n))

/-- A stopped machine takes no step, whatever is pending (60_exceptions.md R231, R245, R274). That the model says so by a
fault is its own choice (log 32). -/
def Obligations.StoppedMachineTakesNoStep : Prop :=
  ∀ s : State, s.running = false → step s = .fault (.stopped s.stopReason) ∧ ∀ t, step s ≠ .next t

/-- What a fetch does, in the order alignment, translation, bounds: a bad pc stops the machine with the pc, the
pending bits, the registers and memory as before, a translation fault is raised at the pc, else the eight bytes from the
translated pc up are fetched (20_memory.md R64). The spec's decisions D14 and D23 (log 16, 26); what raising does is D15 (log
17). -/
def Obligations.FetchOutcomes : Prop :=
  ∀ s : State, s.running = true → NotDue s →
    (s.pc.toNat % 8 ≠ 0 → ∃ t, step s = .next t ∧ Stopped t .pcMisaligned ∧ t.pc = s.pc ∧ t.pending = s.pending ∧
      SameRegs s t ∧ SameMem s t) ∧
    (s.pc.toNat % 8 = 0 → (∀ k, s.translate s.pc .exec = .error k → ∃ t, step s = .next t ∧ FaultRaised s t k) ∧
      ∀ p, s.translate s.pc .exec = .ok p →
        (s.memSize.toNat < p.toNat + 8 → ∃ t, step s = .next t ∧ Stopped t .pcOutOfBounds ∧ t.pc = s.pc ∧
          t.pending = s.pending ∧ SameRegs s t ∧ SameMem s t) ∧
        (p.toNat + 8 ≤ s.memSize.toNat →
          s.fetch = .bytes ((List.range 8).map fun k => s.mem.read (p.toNat + k))))

/-! ## Interrupts -/

/-- With interrupts enabled and some pending, the interrupt check takes the lowest-numbered one, whatever its number and
whatever handler is running (60_exceptions.md R233). (Where that dispatch would nest, the step refuses it: log 21.) -/
def Obligations.LowestPendingInterruptFirst : Prop :=
  ∀ (s : State) (n : IntNum), s.intEnabled = true → s.pending[n] = true →
    ∃ m : IntNum, m ≤ n ∧ s.pending[m] = true ∧ (∀ k : IntNum, k < m → s.pending[k] = false) ∧
      s.interruptCheck = s.dispatch m

/-- With interrupts disabled the check dispatches nothing; and a step clears a pending bit only where interrupts are enabled
and no lower-numbered one is pending (60_exceptions.md R232; 10_state.md R34). -/
def Obligations.PendingClearsOnlyAtDispatch : Prop :=
  (∀ s : State, NotDue s → s.interruptCheck = s) ∧
  ∀ (s t : State) (n : IntNum), step s = .next t → s.pending[n] = true → t.pending[n] = false →
    s.intEnabled = true ∧ ∀ m : IntNum, m < n → s.pending[m] = false

/-- Taking interrupt n with its frame in memory: what is saved, what changes, and how the handler's address is found, read
after the frame is written (60_exceptions.md R250 to R252). Physical frame and IVT accesses and the handler word 0 are the
spec's decisions D16 and D17 (log 18, 19), saved_mode is D18 (log 20), the single saved context D19 (log 21), the mark of an
outstanding dispatch the model's own (log 22). That the pending bit is clear also after a stop for want of a handler
follows the order of R250, against R288: the model's choice (log 32). -/
def Obligations.DispatchEffect : Prop :=
  ∀ (s t : State) (n : IntNum), t = s.dispatch n → (s.getReg 29 - 128#32).toNat + 128 ≤ s.memSize.toNat →
    (∀ r : Reg, t.getReg r = if r = 4 then BitVec.ofNat 32 n.val else if r = 29 then s.getReg 29 - 128#32 else s.getReg r) ∧
    (∀ r : Reg, ∀ k, k < 4 → t.mem.read ((s.getReg 29 - 128#32).toNat + 4 * r.val + k) = (s.getReg r).extractLsb' (8 * k) 8) ∧
    (∀ a, a < (s.getReg 29 - 128#32).toNat ∨ (s.getReg 29 - 128#32).toNat + 128 ≤ a → t.mem.read a = s.mem.read a) ∧
    t.memSize = s.memSize ∧ t.kernelMode = true ∧ t.savedMode = s.kernelMode ∧ t.savedPc = s.pc ∧
    t.savedRegsAddr = s.getReg 29 - 128#32 ∧ t.outstanding = true ∧ t.intEnabled = false ∧
    (∀ m : IntNum, t.pending[m] = if m = n then false else s.pending[m]) ∧ SamePaging s t ∧
    (s.memSize.toNat < 8 * n.val + 4 → Stopped t .ivtOutOfBounds) ∧
    (8 * n.val + 4 ≤ s.memSize.toNat → littleEndian t (8 * n.val) 4 = 0 → Stopped t (.noHandler n)) ∧
    (8 * n.val + 4 ≤ s.memSize.toNat → littleEndian t (8 * n.val) 4 ≠ 0 →
      t.pc.toNat = littleEndian t (8 * n.val) 4 ∧ SameRunning s t)

/-- A dispatch whose frame does not lie in memory stops the machine and writes no register and no byte. The spec's decision
D17 (log 19). -/
def Obligations.DispatchWithoutFrameStops : Prop :=
  ∀ (s : State) (n : IntNum), s.memSize.toNat < (s.getReg 29 - 128#32).toNat + 128 →
    Stopped (s.dispatch n) .frameOutOfBounds ∧ SameRegs s (s.dispatch n) ∧ SameMem s (s.dispatch n)

/-- A handler that keeps the frame and the saved state and executes IRET gives the interrupted program back all its
registers, its pc and its mode, with interrupts enabled (60_exceptions.md R250, R255; 49_system.md R215). Physical frame
accesses are the spec's decision D17 (log 19), saved_mode is D18 (log 20); the dispatch is still outstanding (log 22). -/
def Obligations.DispatchThenIretRestores : Prop :=
  ∀ (s v : State) (n : IntNum), (s.getReg 29 - 128#32).toNat + 128 ≤ s.memSize.toNat → v.kernelMode = true →
    SameSaved (s.dispatch n) v → v.memSize = s.memSize →
    (∀ k, k < 128 → v.mem.read ((s.getReg 29 - 128#32).toNat + k) =
      (s.dispatch n).mem.read ((s.getReg 29 - 128#32).toNat + k)) →
    Completes .iret v fun t => SameRegs s t ∧ t.pc = s.pc ∧ t.kernelMode = s.kernelMode ∧ t.intEnabled = true ∧ SameMem v t

/-- IRET in kernel mode with a dispatch outstanding loads R1 to R31 from the frame at `saved_regs_addr`, whatever it holds,
and restores the pc and the mode; a frame outside memory stops the machine; with no dispatch outstanding, as at reset, it is
refused (49_system.md R215). The stop is the spec's decision D17 (log 19), saved_mode D18 (log 20), the refusal D27 with the
model's own mark of an outstanding dispatch (log 22). -/
def Obligations.IretEffect : Prop :=
  ∀ s : State, s.kernelMode = true →
    (s.outstanding = true → s.savedRegsAddr.toNat + 128 ≤ s.memSize.toNat → Completes .iret s fun t =>
      (∀ r : Reg, (t.getReg r).toNat = if r = 0 then 0 else littleEndian s (s.savedRegsAddr.toNat + 4 * r.val) 4) ∧
      t.pc = s.savedPc ∧ t.kernelMode = s.savedMode ∧ t.intEnabled = true ∧ t.outstanding = false ∧
      t.pending = s.pending ∧ SameContext s t ∧ SamePaging s t ∧ SameRunning s t ∧ SameMem s t) ∧
    (s.outstanding = true → s.memSize.toNat < s.savedRegsAddr.toNat + 128 →
      Completes .iret s fun t => Stopped t .frameOutOfBounds) ∧
    (s.outstanding = false → exec .iret s = .refused .iretOutsideDispatch)

/-- SYSCALL and BREAK take trap 4 and 5 in either mode, whatever the code: the pending bit is set and the pc goes past the
instruction; with interrupts disabled the machine stops (49_system.md R210, R211). The spec's decisions D15 and D22 (log 17,
25). -/
def Obligations.SyscallAndBreakTrap : Prop :=
  ∀ (code : Word) (s : State),
    Completes (.syscall code) s (fun t => TrapRaised s t 4) ∧ Completes (.brk code) s (fun t => TrapRaised s t 5)

/-- The orderly end of a run: a running machine that fetches SYSCALL or BREAK with interrupts disabled stops for an orderly
reason, and takes no further step (70_reset_and_hazards.md R288; the spec's decisions D15 and D30, log 17, 32). -/
def Obligations.SyscallWithInterruptsOffEndsTheRun : Prop :=
  ∀ (s : State) (bs : List Byte) (code : Word), s.running = true → s.intEnabled = false → s.fetch = .bytes bs →
    (decode bs = .ok (.syscall code) ∨ decode bs = .ok (.brk code)) →
    ∃ t reason, step s = .next t ∧ Stopped t reason ∧ orderly reason = true ∧ t.pc = s.pc + 8#32 ∧ ∀ u, step t ≠ .next u

/-- RAISE n and the host's `c32_raise_interrupt(vm, n)` set pending bit n and do nothing else, in either mode and whether or
not interrupts are enabled; RAISE then goes to the next instruction. A bit already set stays a single bit, and one raised
while interrupts are disabled waits (60_exceptions.md R242). -/
def Obligations.RaisingOnlySetsThePendingBit : Prop :=
  (∀ (n : IntNum) (s t : State), s.intEnabled = false → s.pending[n] = true → step s = .next t → t.pending[n] = true) ∧
  ∀ (n : IntNum) (s : State),
    (Completes (.raise (BitVec.ofNat 32 n.val)) s fun t => PendingSet s t n ∧ t.pc = s.pc + 8#32 ∧ SameRegs s t ∧ SameMem s t ∧
      SamePaging s t ∧ SameSaved s t ∧ SameRunning s t ∧ t.kernelMode = s.kernelMode ∧ t.intEnabled = s.intEnabled) ∧
    PendingSet s ((EnvAction.raiseInterrupt n).apply s) n ∧
      (EnvAction.raiseInterrupt n).apply s = { s with pending := ((EnvAction.raiseInterrupt n).apply s).pending }

/-- RAISE with a number above 255 has no meaning and is refused. The spec's decision D22 (log 25). -/
def Obligations.RaiseAbove255IsRefused : Prop :=
  ∀ (n : Word) (s : State), 256 ≤ n.toNat → exec (.raise n) s = .refused .raiseNumberAbove255

/-! ## Privilege -/

/-- The seven opcodes of R262 are the privileged instructions; in user mode each raises interrupt 7 before doing anything,
and no other instruction raises 7 there, unless it is RAISE 7 itself (60_exceptions.md R262; 49_system.md R223). What raising
does is the spec's decision D15 (log 17). -/
def Obligations.PrivilegedInUserModeFaults : Prop :=
  (∀ (f : Fields) (i : Instr), decodeFields f = .ok i →
    (Privileged i ↔ f.opcode.toNat ∈ [0xF2, 0xF3, 0xF4, 0xF7, 0xF8, 0xF9, 0xFB])) ∧
  (∀ (i : Instr) (s : State), Privileged i → s.kernelMode = false → Completes i s fun t => FaultRaised s t 7) ∧
  ∀ (i : Instr) (s t : State), ¬ Privileged i → i ≠ .raise 7 → s.kernelMode = false → exec i s = .next t →
    t.pending[(7 : IntNum)] = s.pending[(7 : IntNum)]

/-- EI and DI in kernel mode write the interrupt enable flag, go to the next instruction and change nothing else
(49_system.md R213, R214). -/
def Obligations.EiAndDiWriteTheFlag : Prop :=
  ∀ s : State, s.kernelMode = true →
    (Completes .ei s fun t => t.intEnabled = true ∧ t.pc = s.pc + 8#32 ∧ SameBesidesFlags s t ∧ SamePaging s t ∧
      t.kernelMode = true) ∧
    (Completes .di s fun t => t.intEnabled = false ∧ t.pc = s.pc + 8#32 ∧ SameBesidesFlags s t ∧ SamePaging s t ∧
      t.kernelMode = true)

/-- ENABLE_PAGING, DISABLE_PAGING, SET_PTBR and ENTER_USER in kernel mode write the paging flag, the page table base from the
register in the rd field and the count from the one in the rt field, or the mode; they write no register, go to the next
instruction and change nothing else (49_system.md R218 to R221). -/
def Obligations.PagingAndModeControl : Prop :=
  ∀ (s : State) (rd rt : Reg), s.kernelMode = true →
    (Completes .enablePaging s fun t => t.pagingEnabled = true ∧ t.pageTableBase = s.pageTableBase ∧ t.numPages = s.numPages ∧
      t.pc = s.pc + 8#32 ∧ SameBesidesFlags s t ∧ t.intEnabled = s.intEnabled ∧ t.kernelMode = true) ∧
    (Completes .disablePaging s fun t => t.pagingEnabled = false ∧ t.pageTableBase = s.pageTableBase ∧
      t.numPages = s.numPages ∧ t.pc = s.pc + 8#32 ∧ SameBesidesFlags s t ∧ t.intEnabled = s.intEnabled ∧
      t.kernelMode = true) ∧
    (Completes (.setPtbr rd rt) s fun t => t.pageTableBase = s.getReg rd ∧ t.numPages = s.getReg rt ∧
      t.pagingEnabled = s.pagingEnabled ∧ t.pc = s.pc + 8#32 ∧ SameBesidesFlags s t ∧ t.intEnabled = s.intEnabled ∧
      t.kernelMode = true) ∧
    (Completes .enterUser s fun t => t.kernelMode = false ∧ SamePaging s t ∧ t.pc = s.pc + 8#32 ∧ SameBesidesFlags s t ∧
      t.intEnabled = s.intEnabled)

/-- A step goes from user to kernel mode only by a dispatch, which records the mode it left, and from kernel to user mode
only by ENTER_USER or by an IRET whose saved mode is user (60_exceptions.md R261). saved_mode is the spec's decision D18 (log
20). -/
def Obligations.ModeTransitions : Prop :=
  (∀ (s : State) (n : IntNum), (s.dispatch n).kernelMode = true ∧ (s.dispatch n).savedMode = s.kernelMode) ∧
  ∀ s t : State, step s = .next t →
    (s.kernelMode = false → t.kernelMode = true → ¬ NotDue s) ∧
    (s.kernelMode = true → t.kernelMode = false → ∃ bs, s.interruptCheck.fetch = .bytes bs ∧
      (decode bs = .ok .enterUser ∨ decode bs = .ok .iret ∧ s.interruptCheck.savedMode = false))

/-- Which instructions write which control state, and that the saved context and the memory size are written by none
(10_state.md R36, the spec's derivation from R28 to R35). saved_mode is the spec's decision D18 (log 20), the mark of an
outstanding dispatch the model's own (log 22). -/
def Obligations.ControlStateWriters : Prop :=
  ∀ (i : Instr) (s t : State), exec i s = .next t →
    SameContextAndSize s t ∧ (t.outstanding ≠ s.outstanding → s.kernelMode = true ∧ i = .iret) ∧
    (t.kernelMode ≠ s.kernelMode → s.kernelMode = true ∧ (i = .enterUser ∨ i = .iret ∧ s.savedMode = false)) ∧
    (t.pagingEnabled ≠ s.pagingEnabled → s.kernelMode = true ∧ (i = .enablePaging ∨ i = .disablePaging)) ∧
    (t.pageTableBase ≠ s.pageTableBase ∨ t.numPages ≠ s.numPages → s.kernelMode = true ∧ ∃ rd rt, i = .setPtbr rd rt) ∧
    (t.intEnabled ≠ s.intEnabled → s.kernelMode = true ∧ (i = .ei ∨ i = .di ∨ i = .iret)) ∧
    ∀ n : IntNum, t.pending[n] ≠ s.pending[n] → t.pending[n] = true ∧
      (i = .raise (BitVec.ofNat 32 n.val) ∨ (∃ code, i = .syscall code ∧ n = 4) ∨ (∃ code, i = .brk code ∧ n = 5) ∨
        n = 2 ∨ n = 7 ∨ n = 8)

/-! ## Register instructions -/

/-- NOP, which any eight bytes that begin with 0 are, only goes to the next instruction (49_system.md R212). That unused
fields are ignored is the spec's decision D5 (log 8). -/
def Obligations.NopOnlyAdvances : Prop :=
  (∀ (b1 b2 b3 : Byte) (imm : Word), Encodes 0x00#8 b1 b2 b3 imm .nop) ∧
  ∀ s : State, Completes .nop s fun t => JumpsOnly s t (s.pc + 8#32)

/-- GETPC reads the saved pc and GETMODE the mode as 1 or 0, in either mode (49_system.md R217, R222). That unused fields are
ignored is the spec's decision D5 (log 8); that GETPC runs by its rule before any dispatch is the model's choice (log 22). -/
def Obligations.GetpcAndGetmode : Prop :=
  ∀ rd : Reg,
    (∀ (b1 b2 : Byte) (imm : Word), Encodes 0xF6#8 b1 b2 rd.toByte imm (.getpc rd) ∧
      Encodes 0xFC#8 b1 b2 rd.toByte imm (.getmode rd)) ∧
    ∀ s : State, Completes (.getpc rd) s (fun t => WritesOnly s t rd s.savedPc) ∧
      Completes (.getmode rd) s (fun t => WritesOnly s t rd (if s.kernelMode = true then 1#32 else 0#32))

/-- Sums and differences modulo 2^32; the signed and unsigned forms agree and none traps (40_arithmetic.md). The absence of
an overflow exception is the spec's decision D6 (log 9), the 32 bits of the immediate D29 (log 31). -/
def Obligations.SumsAndDifferences : Prop :=
  ∀ (rd rs rt : Reg) (imm : Word) (s : State),
    Completes (.add rd rs rt) s (fun t =>
      WritesOnly s t rd (BitVec.ofNat 32 (((s.getReg rs).toNat + (s.getReg rt).toNat) % 2 ^ 32))) ∧
    Completes (.addu rd rs rt) s (fun t =>
      WritesOnly s t rd (BitVec.ofNat 32 (((s.getReg rs).toNat + (s.getReg rt).toNat) % 2 ^ 32))) ∧
    Completes (.sub rd rs rt) s (fun t =>
      WritesOnly s t rd (BitVec.ofNat 32 (((s.getReg rs).toNat + 2 ^ 32 - (s.getReg rt).toNat) % 2 ^ 32))) ∧
    Completes (.subu rd rs rt) s (fun t =>
      WritesOnly s t rd (BitVec.ofNat 32 (((s.getReg rs).toNat + 2 ^ 32 - (s.getReg rt).toNat) % 2 ^ 32))) ∧
    Completes (.addi rt rs imm) s (fun t =>
      WritesOnly s t rt (BitVec.ofNat 32 (((s.getReg rs).toNat + imm.toNat) % 2 ^ 32))) ∧
    Completes (.addiu rt rs imm) s (fun t =>
      WritesOnly s t rt (BitVec.ofNat 32 (((s.getReg rs).toNat + imm.toNat) % 2 ^ 32)))

/-- AND, OR, XOR and NOR work bit by bit on two registers; every immediate encodes the same instruction
(41_logical.md R130 to R133). That the unused immediate is ignored is the spec's decision D5 (log 8). -/
def Obligations.BitwiseRegisters : Prop :=
  ∀ rd rs rt : Reg,
    (∀ imm : Word, Encodes 0x10#8 rs.toByte rt.toByte rd.toByte imm (.and rd rs rt) ∧
      Encodes 0x11#8 rs.toByte rt.toByte rd.toByte imm (.or rd rs rt) ∧
      Encodes 0x12#8 rs.toByte rt.toByte rd.toByte imm (.xor rd rs rt) ∧
      Encodes 0x13#8 rs.toByte rt.toByte rd.toByte imm (.nor rd rs rt)) ∧
    ∀ s : State,
      Completes (.and rd rs rt) s (fun t => ∃ v, Bitwise (· && ·) (s.getReg rs) (s.getReg rt) v ∧ WritesOnly s t rd v) ∧
      Completes (.or rd rs rt) s (fun t => ∃ v, Bitwise (· || ·) (s.getReg rs) (s.getReg rt) v ∧ WritesOnly s t rd v) ∧
      Completes (.xor rd rs rt) s (fun t => ∃ v, Bitwise (· ^^ ·) (s.getReg rs) (s.getReg rt) v ∧ WritesOnly s t rd v) ∧
      Completes (.nor rd rs rt) s (fun t =>
        ∃ v, Bitwise (fun a b => !(a || b)) (s.getReg rs) (s.getReg rt) v ∧ WritesOnly s t rd v)

/-- ANDI, ORI and XORI take all 32 bits of the immediate; LUI keeps its low half as the upper half of the register
(41_logical.md). The full width of the immediate is the spec's decision D29 (log 31). -/
def Obligations.LogicalImmediates : Prop :=
  ∀ (rt rs : Reg) (imm : Word) (s : State),
    Completes (.andi rt rs imm) s (fun t => ∃ v, Bitwise (· && ·) (s.getReg rs) imm v ∧ WritesOnly s t rt v) ∧
    Completes (.ori rt rs imm) s (fun t => ∃ v, Bitwise (· || ·) (s.getReg rs) imm v ∧ WritesOnly s t rt v) ∧
    Completes (.xori rt rs imm) s (fun t => ∃ v, Bitwise (· ^^ ·) (s.getReg rs) imm v ∧ WritesOnly s t rt v) ∧
    Completes (.lui rt imm) s (fun t => WritesOnly s t rt (BitVec.ofNat 32 (imm.toNat % 2 ^ 16 * 2 ^ 16)))

/-- Shifts by 0 to 31: times, or floored division by, a power of two, of the unsigned or the signed value (42_shift.md). The
signed reading is two's complement (log 35). -/
def Obligations.ShiftsByUpTo31 : Prop :=
  ∀ (rd rt rs : Reg) (amount : Word) (s : State),
    (amount.toNat < 32 →
      Completes (.sll rd rt amount) s (fun t =>
        WritesOnly s t rd (BitVec.ofNat 32 ((s.getReg rt).toNat * 2 ^ amount.toNat % 2 ^ 32))) ∧
      Completes (.srl rd rt amount) s (fun t =>
        WritesOnly s t rd (BitVec.ofNat 32 ((s.getReg rt).toNat / 2 ^ amount.toNat))) ∧
      Completes (.sra rd rt amount) s (fun t =>
        WritesOnly s t rd (BitVec.ofInt 32 ((s.getReg rt).toInt / 2 ^ amount.toNat)))) ∧
    ((s.getReg rs).toNat < 32 →
      Completes (.sllv rd rt rs) s (fun t =>
        WritesOnly s t rd (BitVec.ofNat 32 ((s.getReg rt).toNat * 2 ^ (s.getReg rs).toNat % 2 ^ 32))) ∧
      Completes (.srlv rd rt rs) s (fun t =>
        WritesOnly s t rd (BitVec.ofNat 32 ((s.getReg rt).toNat / 2 ^ (s.getReg rs).toNat))) ∧
      Completes (.srav rd rt rs) s (fun t =>
        WritesOnly s t rd (BitVec.ofInt 32 ((s.getReg rt).toInt / 2 ^ (s.getReg rs).toNat))))

/-- A shift by any amount is the shift by the amount's low five bits. The spec's parameter SHIFT_OVER, its decision D8, from
general knowledge (log 11). -/
def Obligations.ShiftAmountIsTakenModulo32 : Prop :=
  ∀ (rd rt rs : Reg) (amount : Word) (s : State),
    exec (.sll rd rt amount) s = exec (.sll rd rt (amount &&& 31#32)) s ∧
    exec (.srl rd rt amount) s = exec (.srl rd rt (amount &&& 31#32)) s ∧
    exec (.sra rd rt amount) s = exec (.sra rd rt (amount &&& 31#32)) s ∧
    exec (.sllv rd rt rs) s = exec (.sll rd rt (s.getReg rs)) s ∧
    exec (.srlv rd rt rs) s = exec (.srl rd rt (s.getReg rs)) s ∧
    exec (.srav rd rt rs) s = exec (.sra rd rt (s.getReg rs)) s

/-- SLTU and SLTIU write 1 or 0 by the unsigned order (43_compare.md R151, R153). That unused fields are ignored is the
spec's decision D5 (log 8), the 32 bits of the immediate D29 (log 31). -/
def Obligations.UnsignedComparisons : Prop :=
  ∀ (rd rs rt : Reg) (imm : Word),
    (∀ b : Byte, Encodes 0x33#8 rs.toByte rt.toByte b imm (.sltiu rt rs imm)) ∧
    Encodes 0x31#8 rs.toByte rt.toByte rd.toByte imm (.sltu rd rs rt) ∧
    ∀ s : State,
      Completes (.sltu rd rs rt) s (fun t =>
        WritesOnly s t rd (if (s.getReg rs).toNat < (s.getReg rt).toNat then 1#32 else 0#32)) ∧
      Completes (.sltiu rt rs imm) s (fun t =>
        WritesOnly s t rt (if (s.getReg rs).toNat < imm.toNat then 1#32 else 0#32))

/-- SLT and SLTI write 1 or 0 by the two's-complement order: the unsigned order with both sign bits turned
(43_compare.md). The representation is the spec's K4 (log 35), the 32 bits of SLTI's immediate D29 (log 31); that SLTI is
signed is the spec's own inference in R152 ("it follows from its pairing with SLTIU"; log 37). -/
def Obligations.SignedComparisons : Prop :=
  ∀ (rd rs rt : Reg) (imm : Word) (s : State),
    Completes (.slt rd rs rt) s (fun t => WritesOnly s t rd
      (if ((s.getReg rs).toNat + 2 ^ 31) % 2 ^ 32 < ((s.getReg rt).toNat + 2 ^ 31) % 2 ^ 32 then 1#32 else 0#32)) ∧
    Completes (.slti rt rs imm) s (fun t => WritesOnly s t rt
      (if ((s.getReg rs).toNat + 2 ^ 31) % 2 ^ 32 < (imm.toNat + 2 ^ 31) % 2 ^ 32 then 1#32 else 0#32))

/-- MUL gives the low 32 bits of the product, whether its operands are read as unsigned or as signed; MULHU the high 32 bits
of the unsigned product (44_muldiv.md R160, R162). That unused fields are ignored is the spec's decision D5 (log 8); the
signed reading is K4 (log 35). -/
def Obligations.UnsignedProducts : Prop :=
  ∀ rd rs rt : Reg,
    (∀ imm : Word, Encodes 0x40#8 rs.toByte rt.toByte rd.toByte imm (.mul rd rs rt) ∧
      Encodes 0x42#8 rs.toByte rt.toByte rd.toByte imm (.mulhu rd rs rt)) ∧
    ∀ s : State,
      Completes (.mul rd rs rt) s (fun t =>
        WritesOnly s t rd (BitVec.ofNat 32 ((s.getReg rs).toNat * (s.getReg rt).toNat % 2 ^ 32)) ∧
        WritesOnly s t rd (BitVec.ofInt 32 ((s.getReg rs).toInt * (s.getReg rt).toInt))) ∧
      Completes (.mulhu rd rs rt) s (fun t =>
        WritesOnly s t rd (BitVec.ofNat 32 ((s.getReg rs).toNat * (s.getReg rt).toNat / 2 ^ 32)))

/-- MULH and MUL together hold the signed product: the high word read as signed times 2^32 plus the low word
(44_muldiv.md; the signed reading is the spec's K4, log 35). -/
def Obligations.SignedHighProduct : Prop :=
  ∀ (rd rs rt : Reg) (s : State), ∃ high low : Word,
    high.toInt * 2 ^ 32 + (low.toNat : Int) = (s.getReg rs).toInt * (s.getReg rt).toInt ∧
    Completes (.mulh rd rs rt) s (fun t => WritesOnly s t rd high) ∧
    Completes (.mul rd rs rt) s (fun t => WritesOnly s t rd low)

/-- DIVU and REMU by a divisor that is not 0: the floored quotient and the remainder below the divisor (44_muldiv.md). -/
def Obligations.UnsignedDivision : Prop :=
  ∀ (rd rs rt : Reg) (s : State), s.getReg rt ≠ 0#32 → ∃ q r : Word,
    (s.getReg rs).toNat = q.toNat * (s.getReg rt).toNat + r.toNat ∧ r.toNat < (s.getReg rt).toNat ∧
    Completes (.divu rd rs rt) s (fun t => WritesOnly s t rd q) ∧
    Completes (.remu rd rs rt) s (fun t => WritesOnly s t rd r)

/-- DIV and REM, but for a zero divisor and the one overflow: a quotient and a remainder of the sign of the dividend and
smaller than the divisor (44_muldiv.md R169). Rounding toward zero is the spec's decision D9, from general knowledge
(log 12); the signed reading is K4 (log 35). -/
def Obligations.SignedDivision : Prop :=
  ∀ (rd rs rt : Reg) (s : State), s.getReg rt ≠ 0#32 → ¬ (s.getReg rs = 0x80000000#32 ∧ s.getReg rt = 0xFFFFFFFF#32) →
    ∃ q r : Word, (s.getReg rs).toInt = q.toInt * (s.getReg rt).toInt + r.toInt ∧ |r.toInt| < |(s.getReg rt).toInt| ∧
      (0 ≤ (s.getReg rs).toInt → 0 ≤ r.toInt) ∧ ((s.getReg rs).toInt ≤ 0 → r.toInt ≤ 0) ∧
      Completes (.div rd rs rt) s (fun t => WritesOnly s t rd q) ∧
      Completes (.rem rd rs rt) s (fun t => WritesOnly s t rd r)

/-- Division and remainder by zero write 0 and raise nothing; the signed overflow gives 0x80000000 and 0. The spec's
parameters DIV_ZERO_RAISES = false (D11, log 14) and DIV_OVERFLOW (D10, from general knowledge, log 13). -/
def Obligations.DivisionCorners : Prop :=
  ∀ (rd rs rt : Reg) (s : State),
    (s.getReg rt = 0#32 →
      Completes (.div rd rs rt) s (fun t => WritesOnly s t rd 0#32) ∧
      Completes (.divu rd rs rt) s (fun t => WritesOnly s t rd 0#32) ∧
      Completes (.rem rd rs rt) s (fun t => WritesOnly s t rd 0#32) ∧
      Completes (.remu rd rs rt) s (fun t => WritesOnly s t rd 0#32)) ∧
    (s.getReg rs = 0x80000000#32 → s.getReg rt = 0xFFFFFFFF#32 →
      Completes (.div rd rs rt) s (fun t => WritesOnly s t rd 0x80000000#32) ∧
      Completes (.rem rd rs rt) s (fun t => WritesOnly s t rd 0#32))

/-! ## Loads and stores -/

/-- A load whose address is aligned, translates and lies in memory writes the little-endian value found there, sign- or
zero-extended, and changes nothing else (45_load.md; 20_memory.md). The checks are the spec's decisions D12, D13, D23 (log 15,
26), the wrap of the address D7 (log 10). -/
def Obligations.LoadsReadMemory : Prop :=
  ∀ (rt rs : Reg) (offset : Word) (s : State) (p : Word),
    (s.effectiveAddress rs offset).toNat = ((s.getReg rs).toNat + offset.toNat) % 2 ^ 32 ∧
    (s.translate (s.effectiveAddress rs offset) .read = .ok p →
      ((s.effectiveAddress rs offset).toNat % 4 = 0 → p.toNat + 4 ≤ s.memSize.toNat →
        Completes (.lw rt offset rs) s (fun t => WritesOnly s t rt (BitVec.ofNat 32 (littleEndian s p.toNat 4)))) ∧
      ((s.effectiveAddress rs offset).toNat % 2 = 0 → p.toNat + 2 ≤ s.memSize.toNat →
        Completes (.lh rt offset rs) s (fun t =>
          WritesOnly s t rt (BitVec.ofNat 32 (signExtended 16 (littleEndian s p.toNat 2)))) ∧
        Completes (.lhu rt offset rs) s (fun t => WritesOnly s t rt (BitVec.ofNat 32 (littleEndian s p.toNat 2)))) ∧
      (p.toNat + 1 ≤ s.memSize.toNat →
        Completes (.lb rt offset rs) s (fun t =>
          WritesOnly s t rt (BitVec.ofNat 32 (signExtended 8 (littleEndian s p.toNat 1)))) ∧
        Completes (.lbu rt offset rs) s (fun t => WritesOnly s t rt (BitVec.ofNat 32 (littleEndian s p.toNat 1)))))

/-- A store whose address is aligned, translates and lies in memory writes the low bytes of its register there, lowest first;
every other byte, every register and all control state are as before (46_store.md; 20_memory.md). The checks are the spec's
decisions D12, D13, D23 (log 15, 26), the wrap of the address D7 (log 10). -/
def Obligations.StoresWriteOnlyTheirBytes : Prop :=
  ∀ (rt rs : Reg) (offset : Word) (s : State) (p : Word),
    (s.effectiveAddress rs offset).toNat = ((s.getReg rs).toNat + offset.toNat) % 2 ^ 32 ∧
    (s.translate (s.effectiveAddress rs offset) .write = .ok p →
      ((s.effectiveAddress rs offset).toNat % 4 = 0 → p.toNat + 4 ≤ s.memSize.toNat →
        Completes (.sw rt offset rs) s (fun t => BytesWritten s t p.toNat 4 (s.getReg rt) ∧ t.pc = s.pc + 8#32 ∧
          SameRegs s t ∧ SameControl s t)) ∧
      ((s.effectiveAddress rs offset).toNat % 2 = 0 → p.toNat + 2 ≤ s.memSize.toNat →
        Completes (.sh rt offset rs) s (fun t => BytesWritten s t p.toNat 2 (s.getReg rt) ∧ t.pc = s.pc + 8#32 ∧
          SameRegs s t ∧ SameControl s t)) ∧
      (p.toNat + 1 ≤ s.memSize.toNat →
        Completes (.sb rt offset rs) s (fun t => BytesWritten s t p.toNat 1 (s.getReg rt) ∧ t.pc = s.pc + 8#32 ∧
          SameRegs s t ∧ SameControl s t)))

/-- A load or store whose access fails raises the first failing check's interrupt and does nothing else: no register, no
byte and not the pc is changed (45_load.md; 46_store.md). The spec's decisions D12, D13, D15, D23 (log 15, 17, 26). -/
def Obligations.FailedAccessesRaise : Prop :=
  ∀ (rt rs : Reg) (offset : Word) (s : State) (k : IntNum),
    (AccessRaises s (s.effectiveAddress rs offset) 4 .read k → Completes (.lw rt offset rs) s (fun t => FaultRaised s t k)) ∧
    (AccessRaises s (s.effectiveAddress rs offset) 2 .read k → Completes (.lh rt offset rs) s (fun t => FaultRaised s t k) ∧
      Completes (.lhu rt offset rs) s (fun t => FaultRaised s t k)) ∧
    (AccessRaises s (s.effectiveAddress rs offset) 1 .read k → Completes (.lb rt offset rs) s (fun t => FaultRaised s t k) ∧
      Completes (.lbu rt offset rs) s (fun t => FaultRaised s t k)) ∧
    (AccessRaises s (s.effectiveAddress rs offset) 4 .write k → Completes (.sw rt offset rs) s (fun t => FaultRaised s t k)) ∧
    (AccessRaises s (s.effectiveAddress rs offset) 2 .write k → Completes (.sh rt offset rs) s (fun t => FaultRaised s t k)) ∧
    (AccessRaises s (s.effectiveAddress rs offset) 1 .write k → Completes (.sb rt offset rs) s (fun t => FaultRaised s t k))

/-- After a word is stored, each narrower load inside it sees exactly the stored bytes (20_memory.md R52, the spec's
derivation from R51). The wrap of the address is the spec's decision D7 (log 10). -/
def Obligations.NarrowLoadsSeeTheStoredWord : Prop :=
  ∀ (rt rs rd : Reg) (offset k : Word) (s t : State), s.kernelMode = true → exec (.sw rt offset rs) s = .next t →
    (s.effectiveAddress rs offset).toNat % 4 = 0 → (s.effectiveAddress rs offset).toNat + 4 ≤ s.memSize.toNat →
    k.toNat < 4 →
    Completes (.lbu rd (offset + k) rs) t (fun u => WritesOnly t u rd
      (BitVec.ofNat 32 ((s.getReg rt).toNat / 2 ^ (8 * k.toNat) % 2 ^ 8))) ∧
    (k.toNat % 2 = 0 → Completes (.lhu rd (offset + k) rs) t (fun u => WritesOnly t u rd
      (BitVec.ofNat 32 ((s.getReg rt).toNat / 2 ^ (8 * k.toNat) % 2 ^ 16))))

/-! ## Branches and jumps -/

/-- A branch only sets the pc: to its own address plus the offset when its condition on the registers holds, else to the next
instruction (47_branch.md). That the offset counts from the branch itself is the spec's decision D20 (log 23); the signed
reading is K4 (log 35). -/
def Obligations.BranchesOnlySetThePc : Prop :=
  ∀ (rs rt : Reg) (offset : Word) (s : State),
    Completes (.beq rs rt offset) s (fun t =>
      JumpsOnly s t (if s.getReg rs = s.getReg rt then s.pc + offset else s.pc + 8#32)) ∧
    Completes (.bne rs rt offset) s (fun t =>
      JumpsOnly s t (if s.getReg rs = s.getReg rt then s.pc + 8#32 else s.pc + offset)) ∧
    Completes (.blez rs offset) s (fun t => JumpsOnly s t
      (if s.getReg rs = 0#32 ∨ (s.getReg rs).getLsbD 31 = true then s.pc + offset else s.pc + 8#32)) ∧
    Completes (.bgtz rs offset) s (fun t => JumpsOnly s t
      (if s.getReg rs = 0#32 ∨ (s.getReg rs).getLsbD 31 = true then s.pc + 8#32 else s.pc + offset)) ∧
    Completes (.bltz rs offset) s (fun t =>
      JumpsOnly s t (if (s.getReg rs).getLsbD 31 = true then s.pc + offset else s.pc + 8#32)) ∧
    Completes (.bgez rs offset) s (fun t =>
      JumpsOnly s t (if (s.getReg rs).getLsbD 31 = true then s.pc + 8#32 else s.pc + offset))

/-- J and JR only set the pc; JAL also links through R31, whatever its unused fields hold (48_jump.md R200 to R202). That
unused fields are ignored is the spec's decision D5 (log 8). -/
def Obligations.JumpsReachTheirTargets : Prop :=
  ∀ (target : Word) (rs : Reg),
    (∀ b1 b2 b3 : Byte, Encodes 0x70#8 b1 b2 b3 target (.j target) ∧ Encodes 0x71#8 b1 b2 b3 target (.jal target) ∧
      Encodes 0x72#8 rs.toByte b2 b3 target (.jr rs)) ∧
    ∀ s : State,
      Completes (.j target) s (fun t => JumpsOnly s t target) ∧
      Completes (.jal target) s (fun t => RegWritten s t 31 (s.pc + 8#32) ∧ t.pc = target ∧ SameMem s t ∧ SameControl s t) ∧
      Completes (.jr rs) s (fun t => JumpsOnly s t (s.getReg rs))

/-- JALR with two different registers jumps to rs and links in rd, rd = R0 discarding the link; with rd = rs the spec gives it
no meaning and it is refused (48_jump.md; the spec's decision D21, log 24). -/
def Obligations.JalrLinksAndJumps : Prop :=
  ∀ (rd rs : Reg) (s : State),
    (rd ≠ rs → Completes (.jalr rd rs) s fun t =>
      RegWritten s t rd (s.pc + 8#32) ∧ t.pc = s.getReg rs ∧ SameMem s t ∧ SameControl s t) ∧
    (rd = rs → exec (.jalr rd rs) s = .refused .jalrSameRegister)

/-! ## Address translation -/

/-- Translation applies exactly in user mode with paging enabled, to data accesses and fetches: elsewhere an address is
physical as it stands, there only pages with V and U set are reached; and neither dispatch nor IRET depends on the paging
registers (20_memory.md R65). The checks of accesses and fetches are the spec's decisions D12, D13, D14, D23 (log 15, 16,
26), the bounds of the page table D24 (log 27), the machine's own accesses D17 (log 19). -/
def Obligations.TranslationAppliesInUserPagingOnly : Prop :=
  (∀ (s : State) (va : Word) (acc : AccessKind) (n a : Nat), s.kernelMode = true ∨ s.pagingEnabled = false →
    s.translate va acc = .ok va ∧
    (s.dataAddress va n acc = .ok a ↔ va.toNat % n = 0 ∧ va.toNat + n ≤ s.memSize.toNat ∧ a = va.toNat) ∧
    ∀ bs, s.fetch = .bytes bs ↔
      s.pc.toNat % 8 = 0 ∧ s.pc.toNat + 8 ≤ s.memSize.toNat ∧ bs = s.mem.readBytes s.pc.toNat 8) ∧
  (∀ (s : State) (va p : Word) (acc : AccessKind) (n a : Nat), s.kernelMode = false → s.pagingEnabled = true →
    (s.translate va acc = .ok p → UserPage s (va.toNat / 4096)) ∧
    (s.dataAddress va n acc = .ok a → UserPage s (va.toNat / 4096)) ∧
    ∀ bs, s.fetch = .bytes bs → UserPage s (s.pc.toNat / 4096)) ∧
  ∀ (s : State) (n : IntNum) (e : Bool) (base num : Word),
    ({ s with pagingEnabled := e, pageTableBase := base, numPages := num }).dispatch n =
      { s.dispatch n with pagingEnabled := e, pageTableBase := base, numPages := num } ∧
    ({ s with pagingEnabled := e, pageTableBase := base, numPages := num }).returnFromInterrupt =
      { s.returnFromInterrupt with pagingEnabled := e, pageTableBase := base, numPages := num }

/-- The causes of a page fault: a page number out of bounds, V or U clear, W clear on a write, X clear on a fetch. A read
needs neither W nor X (20_memory.md R69). -/
def Obligations.PageFaultCauses : Prop :=
  ∀ (s : State) (va : Word), s.kernelMode = false → s.pagingEnabled = true →
    (s.numPages.toNat ≤ va.toNat / 4096 → ∀ acc, s.translate va acc = .error 8) ∧
    (va.toNat / 4096 < s.numPages.toNat → EntryInMemory s (va.toNat / 4096) →
      (s.translate va .read = .error 8 ↔ ¬ UserPage s (va.toNat / 4096)) ∧
      (s.translate va .write = .error 8 ↔
        ¬ (UserPage s (va.toNat / 4096) ∧ (pageEntry s (va.toNat / 4096)).testBit 1 = true)) ∧
      (s.translate va .exec = .error 8 ↔
        ¬ (UserPage s (va.toNat / 4096) ∧ (pageEntry s (va.toNat / 4096)).testBit 2 = true)))

/-- The walk: a translated address is the entry's physical page number followed by the page offset, and an entry outside
memory raises a memory fault (20_memory.md R66 to R68, R70). The latter, and that bits 11:4 are ignored, is the spec's
decision D24 (log 27). -/
def Obligations.TranslatedAddress : Prop :=
  ∀ (s : State) (va : Word) (acc : AccessKind), s.kernelMode = false → s.pagingEnabled = true →
    (∀ p, s.translate va acc = .ok p →
      p.toNat = pageEntry s (va.toNat / 4096) / 4096 * 4096 + va.toNat % 4096) ∧
    (s.translate va acc = .error 2 ↔
      va.toNat / 4096 < s.numPages.toNat ∧ ¬ EntryInMemory s (va.toNat / 4096)) ∧
    (UserPage s (va.toNat / 4096) → (pageEntry s (va.toNat / 4096)).testBit 1 = true →
      (pageEntry s (va.toNat / 4096)).testBit 2 = true → ∃ p, s.translate va acc = .ok p)

/-- One translation serves a whole aligned access: each of its bytes translates to the corresponding byte, in the same page
(20_memory.md R73, the spec's derivation; its decision D24, log 27). -/
def Obligations.NoAccessCrossesAPage : Prop :=
  ∀ (s : State) (va p : Word) (acc : AccessKind) (n k : Nat), (n = 1 ∨ n = 2 ∨ n = 4 ∨ n = 8) → va.toNat % n = 0 → k < n →
    s.translate va acc = .ok p →
    s.translate (va + BitVec.ofNat 32 k) acc = .ok (p + BitVec.ofNat 32 k) ∧
      (p.toNat + k) / 4096 = p.toNat / 4096 ∧ (p + BitVec.ofNat 32 k).toNat = p.toNat + k

/-! ## Isolation -/

/-- An instruction that user code executes with paging on changes a byte only in the physical page of an entry with V, U and
W set (20_memory.md; 60_exceptions.md, section 8). That the entry lies in memory is the spec's decision D24 (log 27). -/
def Obligations.UserStoresStayInWritablePages : Prop :=
  ∀ (i : Instr) (s t : State) (a : Nat), s.kernelMode = false → s.pagingEnabled = true → exec i s = .next t →
    t.mem.read a ≠ s.mem.read a →
    ∃ page, UserPage s page ∧ (pageEntry s page).testBit 1 = true ∧ a / 4096 = pageEntry s page / 4096

/-- What user code with paging on does depends on no byte outside the page table and the pages it may read: two states that
differ only in other bytes take steps to states that again differ only in bytes (20_memory.md; 60_exceptions.md, section
8). The bounds of the page table are the spec's decision D24 (log 27). -/
def Obligations.UserStepsReadOnlyTheirPages : Prop :=
  ∀ s u t : State, s.running = true → NotDue s → s.kernelMode = false → s.pagingEnabled = true → SameButBytes s u →
    (∀ page, page < s.numPages.toNat → EntryInMemory s page → ∀ k, k < 4 →
      u.mem.read (s.pageTableBase.toNat + 4 * page + k) = s.mem.read (s.pageTableBase.toNat + 4 * page + k)) →
    (∀ a, UserReadable s a → u.mem.read a = s.mem.read a) → step s = .next t →
    ∃ v, step u = .next v ∧ SameButBytes t v

/-! ## Reset and the invariant -/

/-- The state after reset: R0 is 0; kernel mode, paging off, interrupts off, nothing pending, nothing saved, running (the
spec's decision D3, log 5), no dispatch outstanding (log 22); R1 to R31, the pc, the memory size and every byte hold the
values the model names for the launch parameters that the spec leaves open (log 1 to 4). -/
def Obligations.ResetState : Prop :=
  (∀ r : Reg, State.reset.getReg r = if r = 0 then 0#32 else Config.initReg) ∧
  State.reset.pc = Config.entryPc ∧ State.reset.memSize = Config.resetMemSize ∧
  (∀ a, State.reset.mem.read a = Config.unlistedByte) ∧
  State.reset.running = true ∧ State.reset.kernelMode = true ∧ State.reset.pagingEnabled = false ∧
  State.reset.pageTableBase = 0#32 ∧ State.reset.numPages = 0#32 ∧ State.reset.intEnabled = false ∧
  (∀ n : IntNum, State.reset.pending[n] = false) ∧ State.reset.savedPc = 0#32 ∧ State.reset.savedRegsAddr = 0#32 ∧
  State.reset.savedMode = true ∧ State.reset.outstanding = false

/-- The invariant holds after reset. That the machine is running then is the spec's decision D3 (log 5), the stop reason the
model's own label (log 32). -/
def Obligations.ResetMeetsTheInvariant : Prop := MachineInv State.reset

/-- Every step keeps the invariant: memory stays in its canonical form and inside MEM_SIZE, R0 stays 0, and the machine has a
stop reason exactly when it has stopped (10_state.md R22; 20_memory.md R57; 60_exceptions.md R245; log 32). -/
def Obligations.StepKeepsTheInvariant : Prop :=
  ∀ s t : State, MachineInv s → step s = .next t → MachineInv t

/-! ## The assembler and the host -/

/-- What the pseudo-instructions do: MOV copies, LI and LA load any constant, NOT complements, B and BAL always branch, and
BAL's expansion does not link (30_encoding.md, section 5; 90_conflicts.md C9, C10; log 23, 31). -/
def Obligations.PseudoInstructions : Prop :=
  ∀ (rd rs : Reg) (v : Word) (s : State),
    (∃ i, expand (.mov rd rs) = [i] ∧ Completes i s fun t => WritesOnly s t rd (s.getReg rs)) ∧
    (∃ i, expand (.li rd v) = [i] ∧ Completes i s fun t => WritesOnly s t rd v) ∧
    (∃ i, expand (.not rd rs) = [i] ∧
      Completes i s fun t => WritesOnly s t rd (BitVec.ofNat 32 (2 ^ 32 - 1 - (s.getReg rs).toNat))) ∧
    (∃ i, expand (.b v) = [i] ∧ Completes i s fun t => JumpsOnly s t (s.pc + v)) ∧
    (∃ i, expand (.bal v) = [i] ∧ Completes i s fun t => JumpsOnly s t (s.pc + v)) ∧
    (∃ i j, expand (.la rd v) = [i, j] ∧ Completes i s fun t => Completes j t fun u =>
      RegWritten s u rd v ∧ u.pc = s.pc + 16#32 ∧ SameMem s u ∧ SameControl s u)

/-- A branch written with a label goes, when its condition holds, to the label's address, and J and JAL written with a label
go there (30_encoding.md, section 5; 47_branch.md; 48_jump.md). The offset from the branch's own address is the spec's
decision D20 (log 23), the signed reading K4 (log 35). -/
def Obligations.LabelOperandsReachTheirLabels : Prop :=
  ∀ (rs rt : Reg) (label : Word) (s : State),
    (s.getReg rs = s.getReg rt → Completes (.beq rs rt (branchOffset label s.pc)) s fun t => JumpsOnly s t label) ∧
    (s.getReg rs ≠ s.getReg rt → Completes (.bne rs rt (branchOffset label s.pc)) s fun t => JumpsOnly s t label) ∧
    ((s.getReg rs).toInt ≤ 0 → Completes (.blez rs (branchOffset label s.pc)) s fun t => JumpsOnly s t label) ∧
    (0 < (s.getReg rs).toInt → Completes (.bgtz rs (branchOffset label s.pc)) s fun t => JumpsOnly s t label) ∧
    ((s.getReg rs).toInt < 0 → Completes (.bltz rs (branchOffset label s.pc)) s fun t => JumpsOnly s t label) ∧
    (0 ≤ (s.getReg rs).toInt → Completes (.bgez rs (branchOffset label s.pc)) s fun t => JumpsOnly s t label) ∧
    Completes (.j label) s (fun t => JumpsOnly s t label) ∧
    Completes (.jal label) s (fun t => RegWritten s t 31 (s.pc + 8#32) ∧ t.pc = label ∧ SameMem s t ∧ SameControl s t)

/-- The host's actions but for writing a field: a handler word is written little-endian at 8n where it lies in memory and is
what a dispatch then reads; allocating memory, loading an image, writing a byte, setting the entry point, enabling and
raising interrupts change what they name and nothing else (70_reset_and_hazards.md, section 3; the spec's decision D25, log
28). That allocating empties memory, and that an image or a byte that does not lie in memory is not written, is the model's
choice (log 36). -/
def Obligations.HostActions : Prop :=
  ∀ (s : State) (n : IntNum) (handler pc size : Word) (offset : Nat) (image : List Byte) (a : Nat) (v : Byte),
    (8 * n.val + 4 ≤ s.memSize.toNat →
      BytesWritten s ((EnvAction.setHandler n handler).apply s) (8 * n.val) 4 handler ∧
      littleEndian ((EnvAction.setHandler n handler).apply s) (8 * n.val) 4 = handler.toNat) ∧
    (s.memSize.toNat < 8 * n.val + 4 → (EnvAction.setHandler n handler).apply s = s) ∧
    SameButBytes s ((EnvAction.setHandler n handler).apply s) ∧
    (EnvAction.enableInterrupts).apply s = { s with intEnabled := true } ∧
    (EnvAction.setEntry pc).apply s = { s with pc := pc } ∧
    PendingSet s ((EnvAction.raiseInterrupt n).apply s) n ∧
    (EnvAction.raiseInterrupt n).apply s = { s with pending := ((EnvAction.raiseInterrupt n).apply s).pending } ∧
    SameButBytes s ((EnvAction.loadImage offset image).apply s) ∧
    (offset + image.length ≤ s.memSize.toNat →
      ((EnvAction.loadImage offset image).apply s).mem.read a =
        if offset ≤ a then (image[a - offset]?).getD (s.mem.read a) else s.mem.read a) ∧
    (s.memSize.toNat < offset + image.length → (EnvAction.loadImage offset image).apply s = s) ∧
    SameButBytes s ((EnvAction.writeByte a v).apply s) ∧
    (a < s.memSize.toNat → ∀ b, ((EnvAction.writeByte a v).apply s).mem.read b = if b = a then v else s.mem.read b) ∧
    (s.memSize.toNat ≤ a → (EnvAction.writeByte a v).apply s = s) ∧
    ((EnvAction.allocate size).apply s).mem.read a = Config.unlistedByte ∧
    (EnvAction.allocate size).apply s = { s with memSize := size, mem := ((EnvAction.allocate size).apply s).mem }

/-- The host writes any one field and nothing else with it (70_reset_and_hazards.md, section 3; the spec's decision D25, log
28). That R0 stays 0, that a new memory size keeps the bytes that still lie in memory, and the label of a stop by the host
are the model's choice (log 36). -/
def Obligations.HostWritesAnyField : Prop :=
  ∀ (s : State) (r : Reg) (v : Word) (b : Bool) (n : IntNum),
    RegWritten s ((FieldWrite.reg r v).apply s) r v ∧
    (FieldWrite.reg r v).apply s = { s with regs := ((FieldWrite.reg r v).apply s).regs } ∧
    (FieldWrite.pc v).apply s = { s with pc := v } ∧
    (∀ a, ((FieldWrite.memSize v).apply s).mem.read a = if a < v.toNat then s.mem.read a else Config.unlistedByte) ∧
    (FieldWrite.memSize v).apply s = { s with memSize := v, mem := ((FieldWrite.memSize v).apply s).mem } ∧
    (FieldWrite.running b).apply s = { s with running := b, stopReason := ((FieldWrite.running b).apply s).stopReason } ∧
    (b = s.running → s.running = s.stopReason.isNone → (FieldWrite.running b).apply s = s) ∧
    (FieldWrite.kernelMode b).apply s = { s with kernelMode := b } ∧
    (FieldWrite.pagingEnabled b).apply s = { s with pagingEnabled := b } ∧
    (FieldWrite.pageTableBase v).apply s = { s with pageTableBase := v } ∧
    (FieldWrite.numPages v).apply s = { s with numPages := v } ∧
    (FieldWrite.intEnabled b).apply s = { s with intEnabled := b } ∧
    (∀ m : IntNum, ((FieldWrite.pending n b).apply s).pending[m] = if m = n then b else s.pending[m]) ∧
    (FieldWrite.pending n b).apply s = { s with pending := ((FieldWrite.pending n b).apply s).pending } ∧
    (FieldWrite.savedPc v).apply s = { s with savedPc := v } ∧
    (FieldWrite.savedRegsAddr v).apply s = { s with savedRegsAddr := v } ∧
    (FieldWrite.savedMode b).apply s = { s with savedMode := b }

/-- Every action of the host keeps the invariant, and so does every run in which the host acts before each cycle
(20_memory.md R57, R81; the spec's decision D25, log 28; the model's own conventions for what the host does, log 36). -/
def Obligations.HostActionsKeepTheInvariant : Prop :=
  (∀ (act : EnvAction) (s : State), MachineInv s → MachineInv (act.apply s)) ∧
  ∀ (acts : List (List EnvAction)) (s t : State), MachineInv s → runWithHost acts s = .next t → MachineInv t

/-- A step refuses as nested exactly where a running machine has an interrupt due while a dispatch is outstanding, and so from
a dispatch to its IRET the one saved context is never overwritten: a step keeps it while a dispatch is outstanding, and ends
the dispatch only by executing IRET (60_exceptions.md R257; 10_state.md R32, R33). The refusal is the spec's decision D19 (log
21), the mark of an outstanding dispatch the model's own (log 22). -/
def Obligations.NestedDispatchIsRefused : Prop :=
  (∀ s : State, step s = .refused .nestedDispatch ↔
    s.running = true ∧ s.outstanding = true ∧ s.intEnabled = true ∧ ∃ n : IntNum, s.pending[n] = true) ∧
  ∀ s t : State, s.outstanding = true → step s = .next t →
    SameContext s t ∧ (t.outstanding = false → ∃ bs, s.fetch = .bytes bs ∧ decode bs = .ok .iret)
end

