-- ==== Sys2Proof/Laws/Decode.lean ====
section
/-! SUPPORT. The bytes of an instruction and its fields determine each other; a register's field value names it. -/

namespace Sys2Proof

/-- The field value of a register names that register (30_encoding.md R93). -/
theorem reg_toByte (f : Fields) (r : Reg) : f.reg r.toByte = .ok r := by
  have h : r.toByte.toNat = r.val := by
    have := r.isLt
    simp only [Reg.toByte, BitVec.toNat_ofNat]; omega
  unfold Fields.reg
  rw [dif_pos (by rw [h]; exact r.isLt)]
  exact congrArg _ (Fin.ext h)

/-- A field value that names a register is below 32; every other one is refused (30_encoding.md R93). -/
theorem reg_eq_error (f : Fields) (b : Byte) (h : 32 ≤ b.toNat) : f.reg b = .error (.registerField f.opcode b) := by
  unfold Fields.reg
  rw [dif_neg (by omega)]

/-- The immediate is its four bytes (30_encoding.md R90). -/
theorem immOfBytes_extract (v : Word) :
    immOfBytes (v.extractLsb' 0 8) (v.extractLsb' 8 8) (v.extractLsb' 16 8) (v.extractLsb' 24 8) = v := by
  apply BitVec.eq_of_getLsbD_eq
  intro i hi
  simp only [immOfBytes, BitVec.getLsbD_append, BitVec.getLsbD_extractLsb']
  by_cases h1 : i < 8
  · simp [h1]
  · by_cases h2 : i < 16
    · have : i - 8 < 8 := by omega
      simp [h1, this, show 8 + (i - 8) = i by omega]
    · by_cases h3 : i < 24
      · have a : ¬ i - 8 < 8 := by omega
        have b : i - 8 - 8 < 8 := by omega
        simp [h1, a, b, show 16 + (i - 8 - 8) = i by omega]
      · have a : ¬ i - 8 < 8 := by omega
        have b : ¬ i - 8 - 8 < 8 := by omega
        have c : i - 8 - 8 - 8 < 8 := by omega
        simp [h1, a, b, c, show 24 + (i - 8 - 8 - 8) = i by omega]

/-- The eight bytes of the fields are those fields (30_encoding.md R90). -/
theorem ofBytes_toBytes (f : Fields) : Fields.ofBytes f.toBytes = some f := by
  simp [Fields.toBytes, Fields.ofBytes, immOfBytes_extract]

/-- Decoding the bytes of the fields decodes the fields. -/
theorem decode_toBytes (f : Fields) : decode f.toBytes = decodeFields f := by
  simp [decode, ofBytes_toBytes]

end Sys2Proof
end

