-- ==== Sys2Proof/Laws/Memory.lean ====
section
/-! SUPPORT. The laws of memory: a read after a write, the canonical form that every write keeps, and the byte order. -/

namespace Sys2Proof.Machine

/-! ## One byte -/

/-- A byte reads as last written; every other byte reads as before. -/
theorem read_write (m : Memory) (a b : Nat) (v : Byte) :
    (m.write a v).read b = if b = a then v else m.read b := by
  induction m with
  | nil => unfold Memory.write; split <;> split <;> simp_all [Memory.read]
  | cons c m ih =>
    obtain ⟨x, w⟩ := c
    unfold Memory.write
    split
    · next h =>
      subst h
      split
      · rw [ih]; by_cases hb : b = a <;> simp [hb, Memory.read]
      · by_cases hb : b = a <;> simp [hb, Memory.read]
    · next h =>
      split
      · by_cases hb : b = a <;> simp [hb, Memory.read]
      · simp only [Memory.read, ih]
        by_cases hb : b = x
        · subst hb; simp [Ne.symm h]
        · simp [hb]

/-- Every entry after a write is the one written or was there before. -/
theorem mem_write {m : Memory} {a : Nat} {v : Byte} {c : Host.Cell} (h : c ∈ m.write a v) :
    (c = (a, v) ∧ v ≠ Config.unlistedByte) ∨ c ∈ m := by
  induction m with
  | nil => unfold Memory.write at h; split at h <;> simp_all
  | cons d m ih =>
    obtain ⟨x, w⟩ := d
    unfold Memory.write at h
    split at h
    · split at h
      · rcases ih h with h | h
        · exact .inl h
        · exact .inr (List.mem_cons_of_mem _ h)
      · rcases List.mem_cons.1 h with h | h
        · exact .inl ⟨h, by assumption⟩
        · exact .inr (List.mem_cons_of_mem _ h)
    · split at h
      · next hlt =>
        rcases List.mem_cons.1 h with h | h
        · exact .inl ⟨h, hlt.2⟩
        · exact .inr h
      · rcases List.mem_cons.1 h with h | h
        · exact .inr (h ▸ List.mem_cons_self)
        · rcases ih h with h | h
          · exact .inl h
          · exact .inr (List.mem_cons_of_mem _ h)

/-- Writing what an unlisted byte reads as leaves no entry at the address, and no new one anywhere. -/
theorem write_unlisted_sublist (m : Memory) (a : Nat) : (m.write a Config.unlistedByte).Sublist m := by
  induction m with
  | nil => simp [Memory.write]
  | cons d m ih =>
    unfold Memory.write
    split
    · simpa using ih.trans (List.sublist_cons_self _ _)
    · simpa using ih

/-- A write keeps the canonical form. -/
theorem wf_write {m : Memory} (h : m.wf) (a : Nat) (v : Byte) : (m.write a v).wf := by
  refine ⟨?_, fun c hc => ?_⟩
  · by_cases hv : v = Config.unlistedByte
    · subst hv; exact h.1.sublist (write_unlisted_sublist m a)
    · obtain ⟨hp, -⟩ := h
      induction m with
      | nil => simp [Memory.write, hv]
      | cons d m ih =>
        obtain ⟨x, w⟩ := d
        have hx := List.pairwise_cons.1 hp
        unfold Memory.write
        split
        · next e => subst e; exact List.pairwise_cons.2 hx
        · next hne =>
          split
          · next hlt =>
            refine List.pairwise_cons.2 ⟨fun c hc => ?_, hp⟩
            rcases List.mem_cons.1 hc with rfl | hc
            · exact hlt.1
            · exact hlt.1.trans (hx.1 c hc)
          · next hge =>
            refine List.pairwise_cons.2 ⟨fun c hc => ?_, ih hx.2⟩
            rcases mem_write hc with ⟨rfl, -⟩ | hc
            · have : ¬ a < x := fun hlt => hge ⟨hlt, hv⟩
              show x < a; omega
            · exact hx.1 c hc
  · rcases mem_write hc with ⟨rfl, hv⟩ | hc
    · exact hv
    · exact h.2 c hc

/-! ## Several bytes -/

/-- Each byte stored reads as stored; every other byte reads as before. -/
theorem read_writeBytes (m : Memory) (a b : Nat) (bs : List Byte) :
    (m.writeBytes a bs).read b = if h : a ≤ b ∧ b - a < bs.length then bs[b - a] else m.read b := by
  induction bs generalizing m a with
  | nil => simp [Memory.writeBytes]
  | cons v bs ih =>
    simp only [Memory.writeBytes, ih, read_write, List.length_cons]
    by_cases h0 : b = a
    · subst h0; simp
    · by_cases h1 : a + 1 ≤ b ∧ b - (a + 1) < bs.length
      · have e : b - a = b - (a + 1) + 1 := by omega
        have h2 : a ≤ b ∧ b - a < bs.length + 1 := by omega
        rw [dif_pos h1, dif_pos h2]; simp [e]
      · have h2 : ¬ (a ≤ b ∧ b - a < bs.length + 1) := by omega
        rw [dif_neg h1, dif_neg h2, if_neg h0]

/-- Storing bytes keeps the canonical form. -/
theorem wf_writeBytes {m : Memory} (h : m.wf) (a : Nat) (bs : List Byte) : (m.writeBytes a bs).wf := by
  induction bs generalizing m a with
  | nil => exact h
  | cons v bs ih => exact ih (wf_write h a v) (a + 1)

/-- Storing bytes below a bound keeps every entry below it. -/
theorem bound_writeBytes {m : Memory} {size a : Nat} {bs : List Byte} (h : ∀ c ∈ m, c.1 < size)
    (hb : a + bs.length ≤ size) : ∀ c ∈ m.writeBytes a bs, c.1 < size := by
  induction bs generalizing m a with
  | nil => exact h
  | cons v bs ih =>
    simp only [List.length_cons] at hb
    refine ih (fun c hc => ?_) (by omega)
    rcases mem_write hc with ⟨rfl, -⟩ | hc
    · show a < size; omega
    · exact h c hc

/-! ## Truncation -/

/-- The bytes below the size read as before, the others as bytes that nothing has written. -/
theorem read_truncate (m : Memory) (size a : Nat) :
    (m.truncate size).read a = if a < size then m.read a else Config.unlistedByte := by
  induction m with
  | nil => simp [Memory.truncate, Memory.read]
  | cons c m ih =>
    simp only [Memory.truncate] at ih ⊢
    rw [List.filter_cons]
    by_cases hc : c.1 < size
    · simp only [hc, decide_true, if_true, Memory.read, ih]
      by_cases ha : a = c.1
      · subst ha; simp [hc]
      · simp [ha]
    · simp only [hc, decide_false, Bool.false_eq_true, if_false, ih, Memory.read]
      by_cases ha : a = c.1
      · subst ha; simp [hc]
      · simp [ha]

theorem wf_truncate {m : Memory} (h : m.wf) (size : Nat) : (m.truncate size).wf :=
  ⟨h.1.filter _, fun c hc => h.2 c (List.mem_filter.1 hc).1⟩

theorem bound_truncate (m : Memory) (size : Nat) : ∀ c ∈ m.truncate size, c.1 < size := fun c hc => by
  simpa using (List.mem_filter.1 hc).2

@[simp] theorem length_readBytes (m : Memory) (a n : Nat) : (m.readBytes a n).length = n := by
  induction n generalizing a with
  | zero => rfl
  | succ n ih => simp [Memory.readBytes, ih]

/-- Byte k of those read from a is the byte at a + k. -/
theorem getElem?_readBytes (m : Memory) (a n k : Nat) :
    (m.readBytes a n)[k]? = if k < n then some (m.read (a + k)) else none := by
  induction n generalizing a k with
  | zero => simp [Memory.readBytes]
  | succ n ih =>
    cases k with
    | zero => simp [Memory.readBytes]
    | succ k => simp [Memory.readBytes, ih, Nat.add_assoc, Nat.add_comm 1 k]

/-- Memories that agree on a range give the same bytes there. -/
theorem readBytes_congr {m m' : Memory} {a n : Nat} (h : ∀ b, a ≤ b → b < a + n → m.read b = m'.read b) :
    m.readBytes a n = m'.readBytes a n := by
  refine List.ext_getElem? fun k => ?_
  simp only [getElem?_readBytes]
  split
  · rw [h (a + k) (by omega) (by omega)]
  · rfl

/-! ## Byte order -/

@[simp] theorem length_leBytes (n v : Nat) : (leBytes n v).length = n := by
  induction n generalizing v with
  | zero => rfl
  | succ n ih => simp [leBytes, ih]

/-- Byte k of a number is its quotient by 256^k, modulo 256 (20_memory.md R51). -/
theorem getElem?_leBytes (n v k : Nat) :
    (leBytes n v)[k]? = if k < n then some (BitVec.ofNat 8 (v / 256 ^ k)) else none := by
  induction n generalizing v k with
  | zero => simp [leBytes]
  | succ n ih =>
    cases k with
    | zero => simp [leBytes]
    | succ k => simp [leBytes, ih, Nat.div_div_eq_div_mul, Nat.pow_succ, Nat.mul_comm]

/-- The bytes of a number stand for the number, modulo its width. -/
theorem leValue_leBytes (n v : Nat) : leValue (leBytes n v) = v % 256 ^ n := by
  induction n generalizing v with
  | zero => simp [leBytes, leValue, Nat.mod_one]
  | succ n ih =>
    simp only [leBytes, leValue, ih, BitVec.toNat_ofNat]
    rw [show 256 ^ (n + 1) = 256 * 256 ^ n by ring, Nat.mod_mul]

theorem leValue_lt (bs : List Byte) : leValue bs < 256 ^ bs.length := by
  induction bs with
  | nil => simp [leValue]
  | cons b bs ih =>
    have := b.isLt
    simp only [leValue, List.length_cons, Nat.pow_succ]
    omega

/-- A byte joined below a number: the number times 256, plus the byte. -/
theorem toNat_append_byte {w : Nat} (x : BitVec w) (b : Byte) : (x ++ b).toNat = b.toNat + 256 * x.toNat := by
  rw [BitVec.toNat_append, ← Nat.shiftLeft_add_eq_or_of_lt b.isLt, Nat.shiftLeft_eq]; omega

/-- The word at pa is its four bytes, the lowest address least significant (20_memory.md R51). -/
theorem physRead_four (s : State) (pa : Nat) :
    s.physRead pa 4 = s.mem.read (pa + 3) ++ s.mem.read (pa + 2) ++ s.mem.read (pa + 1) ++ s.mem.read pa := by
  apply BitVec.eq_of_toNat_eq
  have h0 := (s.mem.read pa).isLt
  have h1 := (s.mem.read (pa + 1)).isLt
  have h2 := (s.mem.read (pa + 2)).isLt
  have h3 := (s.mem.read (pa + 3)).isLt
  simp only [State.physRead, Memory.readBytes, leValue, BitVec.toNat_ofNat, toNat_append_byte, Nat.add_assoc,
    Nat.reduceAdd]
  omega

/-- The halfword at pa is its two bytes, zero-extended (20_memory.md R51). -/
theorem physRead_two (s : State) (pa : Nat) :
    s.physRead pa 2 = (s.mem.read (pa + 1) ++ s.mem.read pa).setWidth 32 := by
  apply BitVec.eq_of_toNat_eq
  have h0 := (s.mem.read pa).isLt
  have h1 := (s.mem.read (pa + 1)).isLt
  simp only [State.physRead, Memory.readBytes, leValue, BitVec.toNat_ofNat, BitVec.toNat_setWidth, toNat_append_byte]
  omega

/-- The byte at pa, zero-extended. -/
theorem physRead_one (s : State) (pa : Nat) : s.physRead pa 1 = (s.mem.read pa).setWidth 32 := by
  apply BitVec.eq_of_toNat_eq
  simp [State.physRead, Memory.readBytes, leValue]

/-- A word read back from where all four of its bytes were stored is that word. -/
theorem physRead_of_readBytes (s : State) (pa : Nat) (v : Word)
    (h : s.mem.readBytes pa 4 = leBytes 4 v.toNat) : s.physRead pa 4 = v := by
  apply BitVec.eq_of_toNat_eq
  have := v.isLt
  simp only [State.physRead, h, leValue_leBytes, BitVec.toNat_ofNat]
  omega

/-- Byte k of a word, as the number's byte and as a bit field. -/
theorem ofNat_div_pow (v : Word) (k : Nat) : BitVec.ofNat 8 (v.toNat / 256 ^ k) = v.extractLsb' (8 * k) 8 := by
  apply BitVec.eq_of_toNat_eq
  simp [BitVec.extractLsb'_toNat, Nat.shiftRight_eq_div_pow, Nat.pow_mul]

/-- `PhysWrite` stores the low 8n bits of the word and no other byte (20_memory.md R59). -/
theorem read_physWrite (s : State) (pa n a : Nat) (v : Word) :
    (s.physWrite pa n v).mem.read a =
      if pa ≤ a ∧ a < pa + n then v.extractLsb' (8 * (a - pa)) 8 else s.mem.read a := by
  simp only [State.physWrite, read_writeBytes, length_leBytes]
  by_cases h : pa ≤ a ∧ a < pa + n
  · have h' : pa ≤ a ∧ a - pa < n := by omega
    have e := getElem?_leBytes n v.toNat (a - pa)
    rw [if_pos h'.2, ofNat_div_pow] at e
    rw [dif_pos h', if_pos h]
    exact (List.getElem?_eq_some_iff.1 e).2
  · have h' : ¬ (pa ≤ a ∧ a - pa < n) := by omega
    rw [dif_neg h', if_neg h]

end Sys2Proof.Machine
end

