-- ==== Sys2Proof/Laws/State.lean ====
section
/-! SUPPORT. One lemma per field for every update of a State in Machine/Ops.lean, so that no later proof unfolds one. -/

namespace Sys2Proof.Machine

variable (s : State) (r rd : Reg) (v target : Word) (n : IntNum) (reason : StopReason) (pa k : Nat)

/-! ## Reading and writing a register -/

@[simp] theorem getReg_zero : s.getReg 0 = 0#32 := rfl

theorem getReg_eq_regs (h : r ≠ 0) : s.getReg r = s.regs[r] := by simp [State.getReg, h]

@[simp] theorem setReg_zero : s.setReg 0 v = s := rfl

/-- A register reads as written, R0 as 0, every other register as before (10_state.md R21). -/
theorem getReg_setReg : (s.setReg rd v).getReg r = if r = rd ∧ r ≠ 0 then v else s.getReg r := by
  by_cases hd : rd = 0
  · subst hd
    by_cases hr : r = 0 <;> simp [hr]
  · by_cases hr : r = 0
    · simp [hr]
    · by_cases h : r = rd
      · subst h; simp [State.getReg, State.setReg, hd]
      · have : (rd : Nat) ≠ (r : Nat) := fun e => h (Fin.ext e.symm)
        simp [State.getReg, State.setReg, hd, hr, h, this]

/-- The registers decide what every register reads. -/
theorem getReg_congr {s t : State} (h : t.regs = s.regs) : t.getReg r = s.getReg r := by
  simp [State.getReg, h]

/-! ## jump -/

@[simp] theorem jump_regs : (s.jump target).regs = s.regs := rfl
@[simp] theorem jump_pc : (s.jump target).pc = target := rfl
@[simp] theorem jump_mem : (s.jump target).mem = s.mem := rfl
@[simp] theorem jump_memSize : (s.jump target).memSize = s.memSize := rfl
@[simp] theorem jump_running : (s.jump target).running = s.running := rfl
@[simp] theorem jump_kernelMode : (s.jump target).kernelMode = s.kernelMode := rfl
@[simp] theorem jump_pagingEnabled : (s.jump target).pagingEnabled = s.pagingEnabled := rfl
@[simp] theorem jump_pageTableBase : (s.jump target).pageTableBase = s.pageTableBase := rfl
@[simp] theorem jump_numPages : (s.jump target).numPages = s.numPages := rfl
@[simp] theorem jump_intEnabled : (s.jump target).intEnabled = s.intEnabled := rfl
@[simp] theorem jump_pending : (s.jump target).pending = s.pending := rfl
@[simp] theorem jump_savedPc : (s.jump target).savedPc = s.savedPc := rfl
@[simp] theorem jump_savedRegsAddr : (s.jump target).savedRegsAddr = s.savedRegsAddr := rfl
@[simp] theorem jump_savedMode : (s.jump target).savedMode = s.savedMode := rfl
@[simp] theorem jump_outstanding : (s.jump target).outstanding = s.outstanding := rfl
@[simp] theorem jump_stopReason : (s.jump target).stopReason = s.stopReason := rfl
@[simp] theorem jump_getReg : (s.jump target).getReg r = s.getReg r := rfl

/-! ## advance -/

@[simp] theorem advance_regs : s.advance.regs = s.regs := rfl
@[simp] theorem advance_pc : s.advance.pc = s.pc + 8#32 := rfl
@[simp] theorem advance_mem : s.advance.mem = s.mem := rfl
@[simp] theorem advance_memSize : s.advance.memSize = s.memSize := rfl
@[simp] theorem advance_running : s.advance.running = s.running := rfl
@[simp] theorem advance_kernelMode : s.advance.kernelMode = s.kernelMode := rfl
@[simp] theorem advance_pagingEnabled : s.advance.pagingEnabled = s.pagingEnabled := rfl
@[simp] theorem advance_pageTableBase : s.advance.pageTableBase = s.pageTableBase := rfl
@[simp] theorem advance_numPages : s.advance.numPages = s.numPages := rfl
@[simp] theorem advance_intEnabled : s.advance.intEnabled = s.intEnabled := rfl
@[simp] theorem advance_pending : s.advance.pending = s.pending := rfl
@[simp] theorem advance_savedPc : s.advance.savedPc = s.savedPc := rfl
@[simp] theorem advance_savedRegsAddr : s.advance.savedRegsAddr = s.savedRegsAddr := rfl
@[simp] theorem advance_savedMode : s.advance.savedMode = s.savedMode := rfl
@[simp] theorem advance_outstanding : s.advance.outstanding = s.outstanding := rfl
@[simp] theorem advance_stopReason : s.advance.stopReason = s.stopReason := rfl
@[simp] theorem advance_getReg : s.advance.getReg r = s.getReg r := rfl

/-! ## stop -/

@[simp] theorem stop_regs : (s.stop reason).regs = s.regs := rfl
@[simp] theorem stop_pc : (s.stop reason).pc = s.pc := rfl
@[simp] theorem stop_mem : (s.stop reason).mem = s.mem := rfl
@[simp] theorem stop_memSize : (s.stop reason).memSize = s.memSize := rfl
@[simp] theorem stop_running : (s.stop reason).running = false := rfl
@[simp] theorem stop_kernelMode : (s.stop reason).kernelMode = s.kernelMode := rfl
@[simp] theorem stop_pagingEnabled : (s.stop reason).pagingEnabled = s.pagingEnabled := rfl
@[simp] theorem stop_pageTableBase : (s.stop reason).pageTableBase = s.pageTableBase := rfl
@[simp] theorem stop_numPages : (s.stop reason).numPages = s.numPages := rfl
@[simp] theorem stop_intEnabled : (s.stop reason).intEnabled = s.intEnabled := rfl
@[simp] theorem stop_pending : (s.stop reason).pending = s.pending := rfl
@[simp] theorem stop_savedPc : (s.stop reason).savedPc = s.savedPc := rfl
@[simp] theorem stop_savedRegsAddr : (s.stop reason).savedRegsAddr = s.savedRegsAddr := rfl
@[simp] theorem stop_savedMode : (s.stop reason).savedMode = s.savedMode := rfl
@[simp] theorem stop_outstanding : (s.stop reason).outstanding = s.outstanding := rfl
@[simp] theorem stop_stopReason : (s.stop reason).stopReason = some reason := rfl
@[simp] theorem stop_getReg : (s.stop reason).getReg r = s.getReg r := rfl

/-! ## pend -/

@[simp] theorem pend_regs : (s.pend n).regs = s.regs := rfl
@[simp] theorem pend_pc : (s.pend n).pc = s.pc := rfl
@[simp] theorem pend_mem : (s.pend n).mem = s.mem := rfl
@[simp] theorem pend_memSize : (s.pend n).memSize = s.memSize := rfl
@[simp] theorem pend_running : (s.pend n).running = s.running := rfl
@[simp] theorem pend_kernelMode : (s.pend n).kernelMode = s.kernelMode := rfl
@[simp] theorem pend_pagingEnabled : (s.pend n).pagingEnabled = s.pagingEnabled := rfl
@[simp] theorem pend_pageTableBase : (s.pend n).pageTableBase = s.pageTableBase := rfl
@[simp] theorem pend_numPages : (s.pend n).numPages = s.numPages := rfl
@[simp] theorem pend_intEnabled : (s.pend n).intEnabled = s.intEnabled := rfl
@[simp] theorem pend_pending : (s.pend n).pending = s.pending.set n true := rfl
@[simp] theorem pend_savedPc : (s.pend n).savedPc = s.savedPc := rfl
@[simp] theorem pend_savedRegsAddr : (s.pend n).savedRegsAddr = s.savedRegsAddr := rfl
@[simp] theorem pend_savedMode : (s.pend n).savedMode = s.savedMode := rfl
@[simp] theorem pend_outstanding : (s.pend n).outstanding = s.outstanding := rfl
@[simp] theorem pend_stopReason : (s.pend n).stopReason = s.stopReason := rfl
@[simp] theorem pend_getReg : (s.pend n).getReg r = s.getReg r := rfl

/-! ## physWrite -/

@[simp] theorem physWrite_regs : (s.physWrite pa k v).regs = s.regs := rfl
@[simp] theorem physWrite_pc : (s.physWrite pa k v).pc = s.pc := rfl
@[simp] theorem physWrite_mem : (s.physWrite pa k v).mem = s.mem.writeBytes pa (leBytes k v.toNat) := rfl
@[simp] theorem physWrite_memSize : (s.physWrite pa k v).memSize = s.memSize := rfl
@[simp] theorem physWrite_running : (s.physWrite pa k v).running = s.running := rfl
@[simp] theorem physWrite_kernelMode : (s.physWrite pa k v).kernelMode = s.kernelMode := rfl
@[simp] theorem physWrite_pagingEnabled : (s.physWrite pa k v).pagingEnabled = s.pagingEnabled := rfl
@[simp] theorem physWrite_pageTableBase : (s.physWrite pa k v).pageTableBase = s.pageTableBase := rfl
@[simp] theorem physWrite_numPages : (s.physWrite pa k v).numPages = s.numPages := rfl
@[simp] theorem physWrite_intEnabled : (s.physWrite pa k v).intEnabled = s.intEnabled := rfl
@[simp] theorem physWrite_pending : (s.physWrite pa k v).pending = s.pending := rfl
@[simp] theorem physWrite_savedPc : (s.physWrite pa k v).savedPc = s.savedPc := rfl
@[simp] theorem physWrite_savedRegsAddr : (s.physWrite pa k v).savedRegsAddr = s.savedRegsAddr := rfl
@[simp] theorem physWrite_savedMode : (s.physWrite pa k v).savedMode = s.savedMode := rfl
@[simp] theorem physWrite_outstanding : (s.physWrite pa k v).outstanding = s.outstanding := rfl
@[simp] theorem physWrite_stopReason : (s.physWrite pa k v).stopReason = s.stopReason := rfl
@[simp] theorem physWrite_getReg : (s.physWrite pa k v).getReg r = s.getReg r := rfl

/-! ## dispatchEnter -/

@[simp] theorem dispatchEnter_regs : s.dispatchEnter.regs = s.regs := rfl
@[simp] theorem dispatchEnter_pc : s.dispatchEnter.pc = s.pc := rfl
@[simp] theorem dispatchEnter_mem : s.dispatchEnter.mem = s.mem := rfl
@[simp] theorem dispatchEnter_memSize : s.dispatchEnter.memSize = s.memSize := rfl
@[simp] theorem dispatchEnter_running : s.dispatchEnter.running = s.running := rfl
@[simp] theorem dispatchEnter_kernelMode : s.dispatchEnter.kernelMode = true := rfl
@[simp] theorem dispatchEnter_pagingEnabled : s.dispatchEnter.pagingEnabled = s.pagingEnabled := rfl
@[simp] theorem dispatchEnter_pageTableBase : s.dispatchEnter.pageTableBase = s.pageTableBase := rfl
@[simp] theorem dispatchEnter_numPages : s.dispatchEnter.numPages = s.numPages := rfl
@[simp] theorem dispatchEnter_intEnabled : s.dispatchEnter.intEnabled = s.intEnabled := rfl
@[simp] theorem dispatchEnter_pending : s.dispatchEnter.pending = s.pending := rfl
@[simp] theorem dispatchEnter_savedPc : s.dispatchEnter.savedPc = s.pc := rfl
@[simp] theorem dispatchEnter_savedRegsAddr : s.dispatchEnter.savedRegsAddr = s.savedRegsAddr := rfl
@[simp] theorem dispatchEnter_savedMode : s.dispatchEnter.savedMode = s.kernelMode := rfl
@[simp] theorem dispatchEnter_outstanding : s.dispatchEnter.outstanding = true := rfl
@[simp] theorem dispatchEnter_stopReason : s.dispatchEnter.stopReason = s.stopReason := rfl
@[simp] theorem dispatchEnter_getReg : s.dispatchEnter.getReg r = s.getReg r := rfl

/-! ## setReg and writeAndAdvance -/

@[simp] theorem setReg_pc : (s.setReg rd v).pc = s.pc := by unfold State.setReg; split <;> rfl
@[simp] theorem setReg_mem : (s.setReg rd v).mem = s.mem := by unfold State.setReg; split <;> rfl
@[simp] theorem setReg_memSize : (s.setReg rd v).memSize = s.memSize := by unfold State.setReg; split <;> rfl
@[simp] theorem setReg_running : (s.setReg rd v).running = s.running := by unfold State.setReg; split <;> rfl
@[simp] theorem setReg_kernelMode : (s.setReg rd v).kernelMode = s.kernelMode := by unfold State.setReg; split <;> rfl
@[simp] theorem setReg_pagingEnabled : (s.setReg rd v).pagingEnabled = s.pagingEnabled := by unfold State.setReg; split <;> rfl
@[simp] theorem setReg_pageTableBase : (s.setReg rd v).pageTableBase = s.pageTableBase := by unfold State.setReg; split <;> rfl
@[simp] theorem setReg_numPages : (s.setReg rd v).numPages = s.numPages := by unfold State.setReg; split <;> rfl
@[simp] theorem setReg_intEnabled : (s.setReg rd v).intEnabled = s.intEnabled := by unfold State.setReg; split <;> rfl
@[simp] theorem setReg_pending : (s.setReg rd v).pending = s.pending := by unfold State.setReg; split <;> rfl
@[simp] theorem setReg_savedPc : (s.setReg rd v).savedPc = s.savedPc := by unfold State.setReg; split <;> rfl
@[simp] theorem setReg_savedRegsAddr : (s.setReg rd v).savedRegsAddr = s.savedRegsAddr := by unfold State.setReg; split <;> rfl
@[simp] theorem setReg_savedMode : (s.setReg rd v).savedMode = s.savedMode := by unfold State.setReg; split <;> rfl
@[simp] theorem setReg_outstanding : (s.setReg rd v).outstanding = s.outstanding := by unfold State.setReg; split <;> rfl
@[simp] theorem setReg_stopReason : (s.setReg rd v).stopReason = s.stopReason := by unfold State.setReg; split <;> rfl

@[simp] theorem writeAndAdvance_pc : (s.writeAndAdvance rd v).pc = s.pc + 8#32 := by simp [State.writeAndAdvance]
@[simp] theorem writeAndAdvance_mem : (s.writeAndAdvance rd v).mem = s.mem := by simp [State.writeAndAdvance]
@[simp] theorem writeAndAdvance_memSize : (s.writeAndAdvance rd v).memSize = s.memSize := by simp [State.writeAndAdvance]
@[simp] theorem writeAndAdvance_running : (s.writeAndAdvance rd v).running = s.running := by simp [State.writeAndAdvance]
@[simp] theorem writeAndAdvance_kernelMode : (s.writeAndAdvance rd v).kernelMode = s.kernelMode := by simp [State.writeAndAdvance]
@[simp] theorem writeAndAdvance_pagingEnabled : (s.writeAndAdvance rd v).pagingEnabled = s.pagingEnabled := by simp [State.writeAndAdvance]
@[simp] theorem writeAndAdvance_pageTableBase : (s.writeAndAdvance rd v).pageTableBase = s.pageTableBase := by simp [State.writeAndAdvance]
@[simp] theorem writeAndAdvance_numPages : (s.writeAndAdvance rd v).numPages = s.numPages := by simp [State.writeAndAdvance]
@[simp] theorem writeAndAdvance_intEnabled : (s.writeAndAdvance rd v).intEnabled = s.intEnabled := by simp [State.writeAndAdvance]
@[simp] theorem writeAndAdvance_pending : (s.writeAndAdvance rd v).pending = s.pending := by simp [State.writeAndAdvance]
@[simp] theorem writeAndAdvance_savedPc : (s.writeAndAdvance rd v).savedPc = s.savedPc := by simp [State.writeAndAdvance]
@[simp] theorem writeAndAdvance_savedRegsAddr : (s.writeAndAdvance rd v).savedRegsAddr = s.savedRegsAddr := by simp [State.writeAndAdvance]
@[simp] theorem writeAndAdvance_savedMode : (s.writeAndAdvance rd v).savedMode = s.savedMode := by simp [State.writeAndAdvance]
@[simp] theorem writeAndAdvance_outstanding : (s.writeAndAdvance rd v).outstanding = s.outstanding := by simp [State.writeAndAdvance]
@[simp] theorem writeAndAdvance_stopReason : (s.writeAndAdvance rd v).stopReason = s.stopReason := by simp [State.writeAndAdvance]

theorem writeAndAdvance_getReg : (s.writeAndAdvance rd v).getReg r = if r = rd ∧ r ≠ 0 then v else s.getReg r := by
  simp [State.writeAndAdvance, getReg_setReg]

/-- R0's slot is never written. -/
theorem setReg_regs_zero : (s.setReg rd v).regs[0] = s.regs[0] := by
  by_cases h : rd = 0
  · simp [h]
  · have : (rd : Nat) ≠ 0 := fun e => h (Fin.ext e)
    simp [State.setReg, h, this]

/-! ## deliverable, raiseFault, raiseTrap -/

@[simp] theorem deliverable_regs : (s.deliverable n).regs = s.regs := by unfold State.deliverable; split <;> rfl
@[simp] theorem deliverable_pc : (s.deliverable n).pc = s.pc := by unfold State.deliverable; split <;> rfl
@[simp] theorem deliverable_mem : (s.deliverable n).mem = s.mem := by unfold State.deliverable; split <;> rfl
@[simp] theorem deliverable_memSize : (s.deliverable n).memSize = s.memSize := by unfold State.deliverable; split <;> rfl
@[simp] theorem deliverable_kernelMode : (s.deliverable n).kernelMode = s.kernelMode := by unfold State.deliverable; split <;> rfl
@[simp] theorem deliverable_pagingEnabled : (s.deliverable n).pagingEnabled = s.pagingEnabled := by unfold State.deliverable; split <;> rfl
@[simp] theorem deliverable_pageTableBase : (s.deliverable n).pageTableBase = s.pageTableBase := by unfold State.deliverable; split <;> rfl
@[simp] theorem deliverable_numPages : (s.deliverable n).numPages = s.numPages := by unfold State.deliverable; split <;> rfl
@[simp] theorem deliverable_intEnabled : (s.deliverable n).intEnabled = s.intEnabled := by unfold State.deliverable; split <;> rfl
@[simp] theorem deliverable_pending : (s.deliverable n).pending = s.pending := by unfold State.deliverable; split <;> rfl
@[simp] theorem deliverable_savedPc : (s.deliverable n).savedPc = s.savedPc := by unfold State.deliverable; split <;> rfl
@[simp] theorem deliverable_savedRegsAddr : (s.deliverable n).savedRegsAddr = s.savedRegsAddr := by unfold State.deliverable; split <;> rfl
@[simp] theorem deliverable_savedMode : (s.deliverable n).savedMode = s.savedMode := by unfold State.deliverable; split <;> rfl
@[simp] theorem deliverable_outstanding : (s.deliverable n).outstanding = s.outstanding := by unfold State.deliverable; split <;> rfl
@[simp] theorem deliverable_getReg : (s.deliverable n).getReg r = s.getReg r := getReg_congr r (by simp)
theorem deliverable_running : (s.deliverable n).running = (s.running && s.intEnabled) := by
  by_cases h : s.intEnabled <;> simp [State.deliverable, h]
theorem deliverable_stopReason :
    (s.deliverable n).stopReason = if s.intEnabled then s.stopReason else some (.undeliverable n) := by
  by_cases h : s.intEnabled <;> simp [State.deliverable, h]

@[simp] theorem raiseFault_regs : (s.raiseFault n).regs = s.regs := by simp [State.raiseFault]
@[simp] theorem raiseFault_pc : (s.raiseFault n).pc = s.pc := by simp [State.raiseFault]
@[simp] theorem raiseFault_mem : (s.raiseFault n).mem = s.mem := by simp [State.raiseFault]
@[simp] theorem raiseFault_memSize : (s.raiseFault n).memSize = s.memSize := by simp [State.raiseFault]
@[simp] theorem raiseFault_kernelMode : (s.raiseFault n).kernelMode = s.kernelMode := by simp [State.raiseFault]
@[simp] theorem raiseFault_pagingEnabled : (s.raiseFault n).pagingEnabled = s.pagingEnabled := by simp [State.raiseFault]
@[simp] theorem raiseFault_pageTableBase : (s.raiseFault n).pageTableBase = s.pageTableBase := by simp [State.raiseFault]
@[simp] theorem raiseFault_numPages : (s.raiseFault n).numPages = s.numPages := by simp [State.raiseFault]
@[simp] theorem raiseFault_intEnabled : (s.raiseFault n).intEnabled = s.intEnabled := by simp [State.raiseFault]
@[simp] theorem raiseFault_pending : (s.raiseFault n).pending = s.pending.set n true := by simp [State.raiseFault]
@[simp] theorem raiseFault_savedPc : (s.raiseFault n).savedPc = s.savedPc := by simp [State.raiseFault]
@[simp] theorem raiseFault_savedRegsAddr : (s.raiseFault n).savedRegsAddr = s.savedRegsAddr := by simp [State.raiseFault]
@[simp] theorem raiseFault_savedMode : (s.raiseFault n).savedMode = s.savedMode := by simp [State.raiseFault]
@[simp] theorem raiseFault_outstanding : (s.raiseFault n).outstanding = s.outstanding := by simp [State.raiseFault]
@[simp] theorem raiseFault_getReg : (s.raiseFault n).getReg r = s.getReg r := getReg_congr r (by simp)
theorem raiseFault_running : (s.raiseFault n).running = (s.running && s.intEnabled) := by
  simp [State.raiseFault, deliverable_running]
theorem raiseFault_stopReason :
    (s.raiseFault n).stopReason = if s.intEnabled then s.stopReason else some (.undeliverable n) := by
  exact deliverable_stopReason (s.pend n) n

@[simp] theorem raiseTrap_regs : (s.raiseTrap n).regs = s.regs := by simp [State.raiseTrap]
@[simp] theorem raiseTrap_pc : (s.raiseTrap n).pc = s.pc + 8#32 := by simp [State.raiseTrap]
@[simp] theorem raiseTrap_mem : (s.raiseTrap n).mem = s.mem := by simp [State.raiseTrap]
@[simp] theorem raiseTrap_memSize : (s.raiseTrap n).memSize = s.memSize := by simp [State.raiseTrap]
@[simp] theorem raiseTrap_kernelMode : (s.raiseTrap n).kernelMode = s.kernelMode := by simp [State.raiseTrap]
@[simp] theorem raiseTrap_pagingEnabled : (s.raiseTrap n).pagingEnabled = s.pagingEnabled := by simp [State.raiseTrap]
@[simp] theorem raiseTrap_pageTableBase : (s.raiseTrap n).pageTableBase = s.pageTableBase := by simp [State.raiseTrap]
@[simp] theorem raiseTrap_numPages : (s.raiseTrap n).numPages = s.numPages := by simp [State.raiseTrap]
@[simp] theorem raiseTrap_intEnabled : (s.raiseTrap n).intEnabled = s.intEnabled := by simp [State.raiseTrap]
@[simp] theorem raiseTrap_pending : (s.raiseTrap n).pending = s.pending.set n true := by simp [State.raiseTrap]
@[simp] theorem raiseTrap_savedPc : (s.raiseTrap n).savedPc = s.savedPc := by simp [State.raiseTrap]
@[simp] theorem raiseTrap_savedRegsAddr : (s.raiseTrap n).savedRegsAddr = s.savedRegsAddr := by simp [State.raiseTrap]
@[simp] theorem raiseTrap_savedMode : (s.raiseTrap n).savedMode = s.savedMode := by simp [State.raiseTrap]
@[simp] theorem raiseTrap_outstanding : (s.raiseTrap n).outstanding = s.outstanding := by simp [State.raiseTrap]
@[simp] theorem raiseTrap_getReg : (s.raiseTrap n).getReg r = s.getReg r := getReg_congr r (by simp)
theorem raiseTrap_running : (s.raiseTrap n).running = (s.running && s.intEnabled) := by
  simp [State.raiseTrap, deliverable_running]
theorem raiseTrap_stopReason :
    (s.raiseTrap n).stopReason = if s.intEnabled then s.stopReason else some (.undeliverable n) := by
  exact deliverable_stopReason (s.pend n).advance n

/-! ## dispatchSave -/

@[simp] theorem dispatchSave_pc : (s.dispatchSave n).pc = s.pc := by simp [State.dispatchSave]
@[simp] theorem dispatchSave_mem : (s.dispatchSave n).mem = s.mem.writeBytes s.frameAddress.toNat s.frameBytes := by simp [State.dispatchSave]
@[simp] theorem dispatchSave_memSize : (s.dispatchSave n).memSize = s.memSize := by simp [State.dispatchSave]
@[simp] theorem dispatchSave_running : (s.dispatchSave n).running = s.running := by simp [State.dispatchSave]
@[simp] theorem dispatchSave_kernelMode : (s.dispatchSave n).kernelMode = s.kernelMode := by simp [State.dispatchSave]
@[simp] theorem dispatchSave_pagingEnabled : (s.dispatchSave n).pagingEnabled = s.pagingEnabled := by simp [State.dispatchSave]
@[simp] theorem dispatchSave_pageTableBase : (s.dispatchSave n).pageTableBase = s.pageTableBase := by simp [State.dispatchSave]
@[simp] theorem dispatchSave_numPages : (s.dispatchSave n).numPages = s.numPages := by simp [State.dispatchSave]
@[simp] theorem dispatchSave_intEnabled : (s.dispatchSave n).intEnabled = false := by simp [State.dispatchSave]
@[simp] theorem dispatchSave_pending : (s.dispatchSave n).pending = s.pending.set n false := by simp [State.dispatchSave]
@[simp] theorem dispatchSave_savedPc : (s.dispatchSave n).savedPc = s.savedPc := by simp [State.dispatchSave]
@[simp] theorem dispatchSave_savedRegsAddr : (s.dispatchSave n).savedRegsAddr = s.frameAddress := by simp [State.dispatchSave]
@[simp] theorem dispatchSave_savedMode : (s.dispatchSave n).savedMode = s.savedMode := by simp [State.dispatchSave]
@[simp] theorem dispatchSave_outstanding : (s.dispatchSave n).outstanding = s.outstanding := by simp [State.dispatchSave]
@[simp] theorem dispatchSave_stopReason : (s.dispatchSave n).stopReason = s.stopReason := by simp [State.dispatchSave]

/-- R4 holds the interrupt number, R29 the frame's address, every other register its value (60_exceptions.md R252). -/
theorem dispatchSave_getReg :
    (s.dispatchSave n).getReg r =
      if r = 4 then BitVec.ofNat 32 n.val else if r = 29 then s.frameAddress else s.getReg r := by
  simp only [State.dispatchSave, getReg_setReg]
  by_cases h4 : r = 4
  · simp [h4]
  · by_cases h29 : r = 29
    · simp [h29]
    · simp only [h4, h29, false_and, if_false]; exact getReg_congr r rfl

end Sys2Proof.Machine
end

