-- ==== Sys2Proof/Laws/Ops.lean ====
section
/-! SUPPORT. What each shared operation can do, said once: translation, data accesses, loads and stores, the interrupt
check, dispatch, IRET and fetch. -/

namespace Sys2Proof.Machine

variable {s t : State} {va pa : Word} {a n : Nat} {acc : AccessKind}

theorem inBounds_iff : s.inBounds a n = true ↔ a + n ≤ s.memSize.toNat := by simp [State.inBounds]

/-! ## Translation -/

/-- Where translation does not apply, the physical address is the virtual one (20_memory.md R65). -/
theorem translate_of_not_translates (h : s.translates = false) : s.translate va acc = .ok va := by
  simp [State.translate, h]

/-- The page table entry that translates an address. -/
def State.pte (s : State) (va : Word) : Word := s.physRead (s.pteAddress (pageNumber va)) 4

/-- What a successful translation says (20_memory.md R70). -/
theorem translate_ok (h : s.translate va acc = .ok pa) :
    (s.translates = false ∧ pa = va) ∨
      (s.translates = true ∧ (pageNumber va).toNat < s.numPages.toNat ∧
        s.pteAddress (pageNumber va) + 4 ≤ s.memSize.toNat ∧ ptePermits (s.pte va) acc = true ∧
        pa = ptePhysical (s.pte va) (pageOffset va)) := by
  unfold State.translate at h
  split at h
  · split at h
    · split at h
      · split at h
        · next h1 h2 h3 h4 => exact .inr ⟨h1, h2, inBounds_iff.1 h3, h4, (Except.ok.inj h).symm⟩
        · exact absurd h (by simp)
      · exact absurd h (by simp)
    · exact absurd h (by simp)
  · next h1 => exact .inl ⟨by simpa using h1, (Except.ok.inj h).symm⟩

/-- A translation that fails raises a page fault or, where the entry lies outside memory, a memory fault (20_memory.md R70). -/
theorem translate_error {k : IntNum} (h : s.translate va acc = .error k) :
    s.translates = true ∧ (k = IntNum.pageFault ∨ k = IntNum.memFault) := by
  unfold State.translate at h
  split at h
  · next h1 =>
    refine ⟨h1, ?_⟩
    split at h
    · split at h
      · split at h
        · exact absurd h (by simp)
        · exact .inl (Except.error.inj h).symm
      · exact .inr (Except.error.inj h).symm
    · exact .inl (Except.error.inj h).symm
  · exact absurd h (by simp)

/-- The offset survives translation, so a page is entered where it is left (20_memory.md R66). -/
theorem ptePhysical_mod (pte : Word) : (ptePhysical pte (pageOffset va)).toNat % 4096 = va.toNat % 4096 := by
  have hd : (pageOffset va).toNat = va.toNat % 4096 := by simp [pageOffset, BitVec.extractLsb'_toNat]
  have ho := (pageOffset va).isLt
  rw [ptePhysical, BitVec.toNat_append, ← Nat.shiftLeft_add_eq_or_of_lt ho, Nat.shiftLeft_eq]
  omega

/-- The frame of a translated address is the entry's page number (20_memory.md R67). -/
theorem ptePhysical_div (pte : Word) (off : BitVec 12) : (ptePhysical pte off).toNat / 4096 = pte.toNat / 4096 := by
  have ho := off.isLt
  have hp := pte.isLt
  have hd : (pte.extractLsb' 12 20).toNat = pte.toNat / 4096 := by
    simp only [BitVec.extractLsb'_toNat, Nat.shiftRight_eq_div_pow]
    omega
  rw [ptePhysical, BitVec.toNat_append, ← Nat.shiftLeft_add_eq_or_of_lt ho, Nat.shiftLeft_eq, hd]
  omega

/-! ## Data accesses -/

/-- A data access finds an address exactly when it is aligned, translates, and lies in memory (20_memory.md R62, R63). -/
theorem dataAddress_ok : s.dataAddress va n acc = .ok a ↔
    va.toNat % n = 0 ∧ ∃ p, s.translate va acc = .ok p ∧ p.toNat + n ≤ s.memSize.toNat ∧ a = p.toNat := by
  unfold State.dataAddress
  by_cases h : va.toNat % n = 0
  · cases ht : s.translate va acc with
    | error k => simp [h]
    | ok p =>
      by_cases hb : p.toNat + n ≤ s.memSize.toNat
      · simp [h, State.inBounds, hb, eq_comm]
      · simp [h, State.inBounds, hb]
  · simp [h]

/-- A data access that finds an address lies in memory. -/
theorem dataAddress_bound (h : s.dataAddress va n acc = .ok a) : a + n ≤ s.memSize.toNat := by
  obtain ⟨-, p, -, hb, rfl⟩ := dataAddress_ok.1 h
  exact hb

/-- A load either writes its register or raises (45_load.md R176). -/
theorem load_of_ok {rt : Reg} {f : Word → Word} (h : s.dataAddress va n .read = .ok a) :
    s.load rt va n f = s.writeAndAdvance rt (f (s.physRead a n)) := by
  simp [State.load, State.memRead, h]

theorem load_of_error {rt : Reg} {f : Word → Word} {k : IntNum} (h : s.dataAddress va n .read = .error k) :
    s.load rt va n f = s.raiseFault k := by
  simp [State.load, State.memRead, h]

/-- A store either stores and goes on or raises (46_store.md R184). -/
theorem store_of_ok {v : Word} (h : s.dataAddress va n .write = .ok a) :
    s.store va n v = (s.physWrite a n v).advance := by
  simp [State.store, State.memWrite, h]

theorem store_of_error {v : Word} {k : IntNum} (h : s.dataAddress va n .write = .error k) :
    s.store va n v = s.raiseFault k := by
  simp [State.store, State.memWrite, h]

/-! ## Pending interrupts and the interrupt check -/

/-- The least pending interrupt is pending, and no lower one is (60_exceptions.md R233). -/
theorem leastPending_eq_some {k : IntNum} :
    s.leastPending = some k ↔ s.pending[k] = true ∧ ∀ m : IntNum, m < k → s.pending[m] = false := by
  unfold State.leastPending
  rw [List.find?_eq_some_iff_getElem]
  constructor
  · rintro ⟨hk, i, hi, he, hl⟩
    refine ⟨hk, fun m hm => ?_⟩
    have hi' : (i : Nat) = k.val := by
      have := congrArg Fin.val he; simpa using this
    have := hl m.val (by rw [hi']; exact hm)
    simpa using this
  · rintro ⟨hk, hl⟩
    exact ⟨hk, k.val, by simp, by simp, fun j hj => by simpa using hl ⟨j, by omega⟩ hj⟩

/-- No interrupt is pending exactly when no bit is set. -/
theorem leastPending_eq_none : s.leastPending = none ↔ ∀ m : IntNum, s.pending[m] = false := by
  simp [State.leastPending, List.find?_eq_none]

/-- The interrupt check changes nothing or dispatches the least pending interrupt (60_exceptions.md R232). -/
theorem interruptCheck_cases : s.interruptCheck = s ∨
    (s.intEnabled = true ∧ ∃ k, s.leastPending = some k ∧ s.interruptCheck = s.dispatch k) := by
  unfold State.interruptCheck
  split
  · next h =>
    cases hp : s.leastPending with
    | none => exact .inl rfl
    | some k => exact .inr ⟨h, k, rfl, rfl⟩
  · exact .inl rfl

/-- A cycle nests exactly when an interrupt is due while a dispatch is outstanding (60_exceptions.md R257). -/
theorem nests_iff :
    s.nests = true ↔ s.outstanding = true ∧ s.intEnabled = true ∧ ∃ n : IntNum, s.pending[n] = true := by
  have h : s.leastPending.isSome = true ↔ ∃ n : IntNum, s.pending[n] = true := by
    simp [State.leastPending, List.find?_isSome]
  simp [State.nests, h, and_assoc]

/-! ## Dispatch and return -/

@[simp] theorem length_frameBytes : s.frameBytes.length = 128 := by
  simp [State.frameBytes, List.length_flatMap]

/-- Steps 9 and 10 of dispatch only set the pc or stop (60_exceptions.md R250). -/
theorem dispatchVector_cases (k : IntNum) :
    (∃ pc, s.dispatchVector k = s.jump pc) ∨ (∃ reason, s.dispatchVector k = s.stop reason) := by
  unfold State.dispatchVector
  split
  · split
    · exact .inl ⟨_, rfl⟩
    · exact .inr ⟨_, rfl⟩
  · exact .inr ⟨_, rfl⟩

/-- Everything a dispatch can do: enter the handler, stop at the IVT after saving, or stop before saving
(60_exceptions.md R250). -/
theorem dispatch_cases (k : IntNum) :
    (s.frameAddress.toNat + 128 ≤ s.memSize.toNat ∧
      ((∃ pc, s.dispatch k = (s.dispatchEnter.dispatchSave k).jump pc) ∨
        ∃ reason, s.dispatch k = (s.dispatchEnter.dispatchSave k).stop reason)) ∨
      (s.memSize.toNat < s.frameAddress.toNat + 128 ∧ s.dispatch k = s.dispatchEnter.stop .frameOutOfBounds) := by
  unfold State.dispatch
  split
  · next h => exact .inl ⟨inBounds_iff.1 h, dispatchVector_cases k⟩
  · next h => exact .inr ⟨by simpa [State.inBounds] using h, rfl⟩

/-- IRET restores from a frame in memory, or stops (49_system.md R215). -/
theorem returnFromInterrupt_cases :
    (s.savedRegsAddr.toNat + 128 ≤ s.memSize.toNat ∧ s.returnFromInterrupt =
        { s with regs := s.frameRegs, pc := s.savedPc, kernelMode := s.savedMode, intEnabled := true,
                 outstanding := false }) ∨
      (s.memSize.toNat < s.savedRegsAddr.toNat + 128 ∧ s.returnFromInterrupt = s.stop .frameOutOfBounds) := by
  unfold State.returnFromInterrupt
  split
  · next h => exact .inl ⟨inBounds_iff.1 h, rfl⟩
  · next h => exact .inr ⟨by simpa [State.inBounds] using h, rfl⟩

/-- The registers IRET restores: R0 is 0, every other one its word of the frame (49_system.md R215). -/
theorem getElem_frameRegs (r : Reg) :
    s.frameRegs[r] = if r = 0 then 0#32 else s.physRead (s.savedRegsAddr.toNat + 4 * r.val) 4 := by
  simp [State.frameRegs]

/-! ## Fetch -/

/-- A fetch gives the eight bytes at the translated pc exactly when the pc is aligned, translates and lies in memory
(20_memory.md R64). -/
theorem fetch_bytes {bs : List Byte} : s.fetch = .bytes bs ↔
    s.pc.toNat % 8 = 0 ∧ ∃ p, s.translate s.pc .exec = .ok p ∧ p.toNat + 8 ≤ s.memSize.toNat ∧
      bs = s.mem.readBytes p.toNat 8 := by
  unfold State.fetch
  by_cases h : s.pc.toNat % 8 = 0
  · cases ht : s.translate s.pc .exec with
    | error k => simp [h]
    | ok p =>
      by_cases hb : p.toNat + 8 ≤ s.memSize.toNat
      · simp [h, State.inBounds, hb, eq_comm]
      · simp [h, State.inBounds, hb]
  · simp [h]

end Sys2Proof.Machine
end

