-- ==== Sys2Proof/Laws/Exec.lean ====
section
/-! SUPPORT. What an instruction and a step can do, said once: every next state is one of a few effects. -/

namespace Sys2Proof.Machine

/-- The effects an instruction can have on a state. -/
inductive Effect (s : State) : State → Prop where
  | write (rd : Reg) (v : Word) : Effect s (s.writeAndAdvance rd v)
  | jump (target : Word) : Effect s (s.jump target)
  | link (rd : Reg) (target : Word) : Effect s ((s.setReg rd s.link).jump target)
  | store (va : Word) (n pa : Nat) (v : Word) (h : s.dataAddress va n .write = .ok pa) (hn : n = 1 ∨ n = 2 ∨ n = 4) :
      Effect s (s.physWrite pa n v).advance
  | fault (k : IntNum) : Effect s (s.raiseFault k)
  | trap (k : IntNum) : Effect s (s.raiseTrap k)
  | pend (k : IntNum) : Effect s (s.pend k).advance
  | interrupts (b : Bool) (h : s.kernelMode = true) : Effect s { s with intEnabled := b }.advance
  | paging (b : Bool) (h : s.kernelMode = true) : Effect s { s with pagingEnabled := b }.advance
  | table (base num : Word) (h : s.kernelMode = true) :
      Effect s { s with pageTableBase := base, numPages := num }.advance
  | enterUser (h : s.kernelMode = true) : Effect s { s with kernelMode := false }.advance
  | iret (h : s.kernelMode = true) (ho : s.outstanding = true) : Effect s s.returnFromInterrupt

theorem load_effect (s : State) (rt : Reg) (va : Word) (n : Nat) (f : Word → Word) : Effect s (s.load rt va n f) := by
  cases h : s.dataAddress va n .read with
  | ok a => exact load_of_ok h ▸ .write _ _
  | error k => exact load_of_error h ▸ .fault k

theorem store_effect (s : State) (va : Word) (n : Nat) (v : Word) (hn : n = 1 ∨ n = 2 ∨ n = 4) :
    Effect s (s.store va n v) := by
  cases h : s.dataAddress va n .write with
  | ok a => exact store_of_ok h ▸ .store va n a v h hn
  | error k => exact store_of_error h ▸ .fault k

theorem branch_effect (s : State) (b : Bool) (offset : Word) : Effect s (s.branch b offset) := by
  cases b
  · exact .jump _
  · exact .jump _

theorem privileged_effect {s t : State} (h : s.kernelMode = true → Effect s t) : Effect s (s.privileged t) := by
  unfold State.privileged
  split
  · next hk => exact h hk
  · exact .fault _

/-- IRET in kernel mode with a dispatch outstanding returns from it (49_system.md R215). -/
theorem exec_iret {s : State} (hk : s.kernelMode = true) (ho : s.outstanding = true) :
    exec .iret s = .next s.returnFromInterrupt := by
  simp [exec, execIret, State.privileged, hk, ho]

/-- Every next state of an instruction is one of the effects. -/
theorem exec_effect {i : Instr} {s t : State} (h : exec i s = .next t) : Effect s t := by
  cases i
  case nop => cases h; exact .jump _
  case j => cases h; exact .jump _
  case jr => cases h; exact .jump _
  case jal => cases h; exact .link _ _
  case jalr rd rs =>
    simp only [exec, execJalr] at h
    split at h
    · cases h
    · cases h; exact .link _ _
  case syscall => cases h; exact .trap _
  case brk => cases h; exact .trap _
  case raise n =>
    simp only [exec, execRaise] at h
    split at h
    · cases h; exact .pend _
    · cases h
  case ei => cases h; exact privileged_effect (.interrupts true)
  case di => cases h; exact privileged_effect (.interrupts false)
  case iret =>
    simp only [exec, execIret] at h
    split at h
    · cases h
    · next hn => cases h; exact privileged_effect fun hk => .iret hk (by simpa [hk] using hn)
  case enablePaging => cases h; exact privileged_effect (.paging true)
  case disablePaging => cases h; exact privileged_effect (.paging false)
  case setPtbr => cases h; exact privileged_effect (.table _ _)
  case enterUser => cases h; exact privileged_effect .enterUser
  case sw => cases h; exact store_effect _ _ _ _ (by simp)
  case sh => cases h; exact store_effect _ _ _ _ (by simp)
  case sb => cases h; exact store_effect _ _ _ _ (by simp)
  case lw => cases h; exact load_effect _ _ _ _ _
  case lh => cases h; exact load_effect _ _ _ _ _
  case lhu => cases h; exact load_effect _ _ _ _ _
  case lb => cases h; exact load_effect _ _ _ _ _
  case lbu => cases h; exact load_effect _ _ _ _ _
  case beq => cases h; exact branch_effect _ _ _
  case bne => cases h; exact branch_effect _ _ _
  case blez => cases h; exact branch_effect _ _ _
  case bgtz => cases h; exact branch_effect _ _ _
  case bltz => cases h; exact branch_effect _ _ _
  case bgez => cases h; exact branch_effect _ _ _
  all_goals cases h; exact .write _ _

/-- Everything a step can do (60_exceptions.md R231), no dispatch nesting (R257): the interrupt check stops the machine, the fetch stops it or raises,
the bytes fetched are no instruction and raise, or the instruction they hold is executed. -/
theorem step_cases {s t : State} (h : step s = .next t) :
    s.running = true ∧ s.nests = false ∧
      ((s.interruptCheck.running = false ∧ t = s.interruptCheck) ∨
        (s.interruptCheck.running = true ∧
          ((∃ reason, s.interruptCheck.fetch = .stop reason ∧ t = s.interruptCheck.stop reason) ∨
            (∃ k, t = s.interruptCheck.raiseFault k) ∨
            ∃ bs i, s.interruptCheck.fetch = .bytes bs ∧ decode bs = .ok i ∧ exec i s.interruptCheck = .next t))) := by
  unfold step State.stepOrStopped at h
  split at h
  · next hr =>
    refine ⟨hr, ?_⟩
    unfold State.cycle at h
    split at h
    · cases h
    next hn =>
    refine ⟨by simpa using hn, ?_⟩
    split at h
    · next hc =>
      refine .inr ⟨hc, ?_⟩
      unfold State.fetchExecute at h
      split at h
      · next reason hf => cases h; exact .inl ⟨reason, hf, rfl⟩
      · next k hf => cases h; exact .inr (.inl ⟨k, rfl⟩)
      · next bs hf =>
        unfold State.executeBytes at h
        split at h
        · next i hd => exact .inr (.inr ⟨bs, i, hf, hd, h⟩)
        · next e hd =>
          cases e with
          | length => cases h
          | reservedOpcode op => cases h; exact .inr (.inl ⟨_, rfl⟩)
          | registerField op b =>
            simp only [State.onReject] at h
            split at h
            · cases h; exact .inr (.inl ⟨_, rfl⟩)
            · cases h
    · next hc => cases h; exact .inl ⟨by simpa using hc, rfl⟩
  · cases h

end Sys2Proof.Machine
end

