-- ==== Sys2Proof/Laws/Effects.lean ====
section
/-! SUPPORT. The shared operations in the terms of Safety.lean: each has exactly the effect its name says, so that a
statement about an instruction cites one lemma and unfolds nothing. -/

namespace Sys2Proof.Machine

open Sys2Proof.Safety

variable (s : State)

/-- A bit of the pending set after one bit is written (60_exceptions.md R242). -/
theorem getElem_pending_set (v : Vector Bool 256) (n m : IntNum) (b : Bool) :
    (v.set n b)[m] = if m = n then b else v[m] := by
  by_cases h : m = n
  · subst h; simp
  · have : (n : Nat) ≠ m := fun e => h (Fin.ext e.symm)
    simp [h, this]

theorem writeAndAdvance_writesOnly (rd : Reg) (v : Word) : WritesOnly s (s.writeAndAdvance rd v) rd v :=
  ⟨fun r => writeAndAdvance_getReg s r rd v, by simp, ⟨by simp, by simp⟩,
    ⟨by simp, by simp, by simp⟩, ⟨⟨by simp, by simp, by simp⟩, by simp⟩, ⟨by simp, by simp⟩, by simp, by simp, by simp⟩

theorem jump_jumpsOnly (target : Word) : JumpsOnly s (s.jump target) target :=
  ⟨rfl, fun _ => rfl, ⟨rfl, fun _ => rfl⟩, ⟨rfl, rfl, rfl⟩, ⟨⟨rfl, rfl, rfl⟩, rfl⟩, ⟨rfl, rfl⟩, rfl, rfl, rfl⟩

/-- Writing the link and jumping (48_jump.md R201, R203). -/
theorem setReg_jump_links (rd : Reg) (v target : Word) :
    RegWritten s ((s.setReg rd v).jump target) rd v ∧ SameMem s ((s.setReg rd v).jump target) ∧
      SameControl s ((s.setReg rd v).jump target) :=
  ⟨fun r => getReg_setReg s r rd v, ⟨by simp, by simp⟩,
    ⟨by simp, by simp, by simp⟩, ⟨⟨by simp, by simp, by simp⟩, by simp⟩, ⟨by simp, by simp⟩, by simp, by simp, by simp⟩

theorem physWrite_bytesWritten (pa n : Nat) (v : Word) : BytesWritten s (s.physWrite pa n v) pa n v :=
  ⟨rfl, fun a => read_physWrite s pa n a v⟩

theorem pend_pendingSet (n : IntNum) : PendingSet s (s.pend n) n := fun m => getElem_pending_set _ n m true

theorem raiseFault_faultRaised (n : IntNum) : FaultRaised s (s.raiseFault n) n := by
  refine ⟨fun m => ?_, by simp, fun r => by simp, ⟨by simp, by simp⟩, ⟨by simp, by simp, by simp⟩,
    ⟨⟨by simp, by simp, by simp⟩, by simp⟩, by simp, by simp, fun h => ⟨?_, ?_⟩, fun h => ⟨?_, ?_⟩⟩
  · simpa using getElem_pending_set s.pending n m true
  all_goals simp [raiseFault_running, raiseFault_stopReason, h]

theorem raiseTrap_trapRaised (n : IntNum) : TrapRaised s (s.raiseTrap n) n := by
  refine ⟨fun m => ?_, by simp, fun r => by simp, ⟨by simp, by simp⟩, ⟨by simp, by simp, by simp⟩,
    ⟨⟨by simp, by simp, by simp⟩, by simp⟩, by simp, by simp, fun h => ⟨?_, ?_⟩, fun h => ⟨?_, ?_⟩⟩
  · simpa using getElem_pending_set s.pending n m true
  all_goals simp [raiseTrap_running, raiseTrap_stopReason, h]

variable {s}

/-- Where no interrupt is due, the check changes nothing (60_exceptions.md R232). -/
theorem interruptCheck_of_notDue (h : NotDue s) : s.interruptCheck = s := by
  rcases interruptCheck_cases (s := s) with e | ⟨hi, k, hk, -⟩
  · exact e
  · rcases h with h | h
    · simp [h] at hi
    · have := (leastPending_eq_some.1 hk).1; simp [h k] at this

/-- Where no interrupt is due, no dispatch nests (60_exceptions.md R257). -/
theorem nests_of_notDue (h : NotDue s) : s.nests = false := by
  refine Bool.eq_false_iff.2 fun hn => ?_
  obtain ⟨-, hi, n, hp⟩ := nests_iff.1 hn
  rcases h with h | h
  · simp [h] at hi
  · simp [h n] at hp

/-- A running machine at which no interrupt is due executes the bytes it fetches (60_exceptions.md R231). -/
theorem step_of_fetch {bs : List Byte} (hr : s.running = true) (hn : NotDue s) (hf : s.fetch = .bytes bs) :
    step s = s.executeBytes bs := by
  simp [step, State.stepOrStopped, hr, State.cycle, nests_of_notDue hn, interruptCheck_of_notDue hn, State.fetchExecute, hf]

/-- The number bytes stand for, as the sum of R51 (20_memory.md). -/
theorem leValue_readBytes (s : State) (a n : Nat) : leValue (s.mem.readBytes a n) = littleEndian s a n := by
  induction n generalizing a with
  | zero => simp [Memory.readBytes, leValue, littleEndian]
  | succ n ih =>
    simp only [littleEndian] at ih
    simp only [Memory.readBytes, leValue, ih, littleEndian, Finset.sum_range_succ', Finset.mul_sum]
    rw [add_comm]
    congr 1
    · refine Finset.sum_congr rfl fun k _ => ?_
      rw [show a + 1 + k = a + (k + 1) by omega, show 8 * (k + 1) = 8 * k + 8 by ring, pow_add]; ring
    · simp

theorem physRead_eq_littleEndian (s : State) (a n : Nat) : s.physRead a n = BitVec.ofNat 32 (littleEndian s a n) := by
  rw [State.physRead, leValue_readBytes]

theorem littleEndian_lt (s : State) (a n : Nat) : littleEndian s a n < 256 ^ n := by
  have := leValue_lt (s.mem.readBytes a n)
  rwa [length_readBytes, leValue_readBytes] at this

theorem physRead_four_toNat (s : State) (a : Nat) : (s.physRead a 4).toNat = littleEndian s a 4 := by
  have := littleEndian_lt s a 4
  rw [physRead_eq_littleEndian, BitVec.toNat_ofNat]
  omega

/-- Byte k of the word that the frame holds for register r (60_exceptions.md R251). -/
theorem getElem?_frameBytes (s : State) (r : Reg) (k : Nat) (hk : k < 4) :
    s.frameBytes[4 * r.val + k]? = some ((s.getReg r).extractLsb' (8 * k) 8) := by
  have gen : ∀ (l : List Reg) (j : Nat) (hj : j < l.length),
      (l.flatMap fun r => leBytes 4 (s.getReg r).toNat)[4 * j + k]? = some ((s.getReg l[j]).extractLsb' (8 * k) 8) := by
    intro l
    induction l with
    | nil => intro j hj; simp at hj
    | cons a l ih =>
      intro j hj
      simp only [List.flatMap_cons]
      cases j with
      | zero =>
        rw [List.getElem?_append_left (by simp; omega), getElem?_leBytes, if_pos (by omega)]
        simp [ofNat_div_pow]
      | succ j =>
        rw [List.getElem?_append_right (by simp; omega), length_leBytes, show 4 * (j + 1) + k - 4 = 4 * j + k by omega]
        simpa using ih j (by simpa using hj)
  simpa [State.frameBytes] using gen (List.finRange 32) r.val (by simp)

/-- A frame stored at a holds the word of register r at a + 4r (60_exceptions.md R251). -/
theorem read_writeBytes_frameBytes (s : State) (m : Memory) (a : Nat) (r : Reg) (k : Nat) (hk : k < 4) :
    (m.writeBytes a s.frameBytes).read (a + 4 * r.val + k) = (s.getReg r).extractLsb' (8 * k) 8 := by
  have hr := r.isLt
  have h := getElem?_frameBytes s r k hk
  rw [show 4 * r.val + k = a + 4 * r.val + k - a by omega] at h
  rw [read_writeBytes, dif_pos ⟨by omega, by rw [length_frameBytes]; omega⟩]
  exact (List.getElem?_eq_some_iff.1 h).2

end Sys2Proof.Machine
end

