-- ==== Sys2Proof/Laws/PerInstr.lean ====
section
/-! SUPPORT. Statements about every instruction as syntax, one lemma a constructor. -/

namespace Sys2Proof.Laws

/-- An instruction encodes in eight bytes (30_encoding.md R90), the first of them its opcode in the opcode map (R96), and
every register field names a register. -/
def EncodesInEightBytes.Statement (i : Instr) : Prop :=
  (encode i).length = 8 ∧ (encode i)[0]? = some (encodeFields i).opcode ∧
    (encodeFields i).rs.toNat < 32 ∧ (encodeFields i).rt.toNat < 32 ∧ (encodeFields i).rd.toNat < 32

theorem toByte_lt (r : Reg) : r.toByte.toNat < 32 := by
  have := r.isLt
  simp only [Reg.toByte, BitVec.toNat_ofNat]; omega

theorem zero_field_lt : (0 : Byte).toNat < 32 := by decide

theorem EncodesInEightBytes.nop : EncodesInEightBytes.Statement .nop :=
  ⟨rfl, rfl, zero_field_lt, zero_field_lt, zero_field_lt⟩
theorem EncodesInEightBytes.add (a0 : Reg) (a1 : Reg) (a2 : Reg) : EncodesInEightBytes.Statement (.add a0 a1 a2) :=
  ⟨rfl, rfl, toByte_lt _, toByte_lt _, toByte_lt _⟩
theorem EncodesInEightBytes.addu (a0 : Reg) (a1 : Reg) (a2 : Reg) : EncodesInEightBytes.Statement (.addu a0 a1 a2) :=
  ⟨rfl, rfl, toByte_lt _, toByte_lt _, toByte_lt _⟩
theorem EncodesInEightBytes.sub (a0 : Reg) (a1 : Reg) (a2 : Reg) : EncodesInEightBytes.Statement (.sub a0 a1 a2) :=
  ⟨rfl, rfl, toByte_lt _, toByte_lt _, toByte_lt _⟩
theorem EncodesInEightBytes.subu (a0 : Reg) (a1 : Reg) (a2 : Reg) : EncodesInEightBytes.Statement (.subu a0 a1 a2) :=
  ⟨rfl, rfl, toByte_lt _, toByte_lt _, toByte_lt _⟩
theorem EncodesInEightBytes.addi (a0 : Reg) (a1 : Reg) (a2 : Word) : EncodesInEightBytes.Statement (.addi a0 a1 a2) :=
  ⟨rfl, rfl, toByte_lt _, toByte_lt _, zero_field_lt⟩
theorem EncodesInEightBytes.addiu (a0 : Reg) (a1 : Reg) (a2 : Word) : EncodesInEightBytes.Statement (.addiu a0 a1 a2) :=
  ⟨rfl, rfl, toByte_lt _, toByte_lt _, zero_field_lt⟩
theorem EncodesInEightBytes.and (a0 : Reg) (a1 : Reg) (a2 : Reg) : EncodesInEightBytes.Statement (.and a0 a1 a2) :=
  ⟨rfl, rfl, toByte_lt _, toByte_lt _, toByte_lt _⟩
theorem EncodesInEightBytes.or (a0 : Reg) (a1 : Reg) (a2 : Reg) : EncodesInEightBytes.Statement (.or a0 a1 a2) :=
  ⟨rfl, rfl, toByte_lt _, toByte_lt _, toByte_lt _⟩
theorem EncodesInEightBytes.xor (a0 : Reg) (a1 : Reg) (a2 : Reg) : EncodesInEightBytes.Statement (.xor a0 a1 a2) :=
  ⟨rfl, rfl, toByte_lt _, toByte_lt _, toByte_lt _⟩
theorem EncodesInEightBytes.nor (a0 : Reg) (a1 : Reg) (a2 : Reg) : EncodesInEightBytes.Statement (.nor a0 a1 a2) :=
  ⟨rfl, rfl, toByte_lt _, toByte_lt _, toByte_lt _⟩
theorem EncodesInEightBytes.andi (a0 : Reg) (a1 : Reg) (a2 : Word) : EncodesInEightBytes.Statement (.andi a0 a1 a2) :=
  ⟨rfl, rfl, toByte_lt _, toByte_lt _, zero_field_lt⟩
theorem EncodesInEightBytes.ori (a0 : Reg) (a1 : Reg) (a2 : Word) : EncodesInEightBytes.Statement (.ori a0 a1 a2) :=
  ⟨rfl, rfl, toByte_lt _, toByte_lt _, zero_field_lt⟩
theorem EncodesInEightBytes.xori (a0 : Reg) (a1 : Reg) (a2 : Word) : EncodesInEightBytes.Statement (.xori a0 a1 a2) :=
  ⟨rfl, rfl, toByte_lt _, toByte_lt _, zero_field_lt⟩
theorem EncodesInEightBytes.lui (a0 : Reg) (a1 : Word) : EncodesInEightBytes.Statement (.lui a0 a1) :=
  ⟨rfl, rfl, zero_field_lt, toByte_lt _, zero_field_lt⟩
theorem EncodesInEightBytes.sll (a0 : Reg) (a1 : Reg) (a2 : Word) : EncodesInEightBytes.Statement (.sll a0 a1 a2) :=
  ⟨rfl, rfl, zero_field_lt, toByte_lt _, toByte_lt _⟩
theorem EncodesInEightBytes.srl (a0 : Reg) (a1 : Reg) (a2 : Word) : EncodesInEightBytes.Statement (.srl a0 a1 a2) :=
  ⟨rfl, rfl, zero_field_lt, toByte_lt _, toByte_lt _⟩
theorem EncodesInEightBytes.sra (a0 : Reg) (a1 : Reg) (a2 : Word) : EncodesInEightBytes.Statement (.sra a0 a1 a2) :=
  ⟨rfl, rfl, zero_field_lt, toByte_lt _, toByte_lt _⟩
theorem EncodesInEightBytes.sllv (a0 : Reg) (a1 : Reg) (a2 : Reg) : EncodesInEightBytes.Statement (.sllv a0 a1 a2) :=
  ⟨rfl, rfl, toByte_lt _, toByte_lt _, toByte_lt _⟩
theorem EncodesInEightBytes.srlv (a0 : Reg) (a1 : Reg) (a2 : Reg) : EncodesInEightBytes.Statement (.srlv a0 a1 a2) :=
  ⟨rfl, rfl, toByte_lt _, toByte_lt _, toByte_lt _⟩
theorem EncodesInEightBytes.srav (a0 : Reg) (a1 : Reg) (a2 : Reg) : EncodesInEightBytes.Statement (.srav a0 a1 a2) :=
  ⟨rfl, rfl, toByte_lt _, toByte_lt _, toByte_lt _⟩
theorem EncodesInEightBytes.slt (a0 : Reg) (a1 : Reg) (a2 : Reg) : EncodesInEightBytes.Statement (.slt a0 a1 a2) :=
  ⟨rfl, rfl, toByte_lt _, toByte_lt _, toByte_lt _⟩
theorem EncodesInEightBytes.sltu (a0 : Reg) (a1 : Reg) (a2 : Reg) : EncodesInEightBytes.Statement (.sltu a0 a1 a2) :=
  ⟨rfl, rfl, toByte_lt _, toByte_lt _, toByte_lt _⟩
theorem EncodesInEightBytes.slti (a0 : Reg) (a1 : Reg) (a2 : Word) : EncodesInEightBytes.Statement (.slti a0 a1 a2) :=
  ⟨rfl, rfl, toByte_lt _, toByte_lt _, zero_field_lt⟩
theorem EncodesInEightBytes.sltiu (a0 : Reg) (a1 : Reg) (a2 : Word) : EncodesInEightBytes.Statement (.sltiu a0 a1 a2) :=
  ⟨rfl, rfl, toByte_lt _, toByte_lt _, zero_field_lt⟩
theorem EncodesInEightBytes.mul (a0 : Reg) (a1 : Reg) (a2 : Reg) : EncodesInEightBytes.Statement (.mul a0 a1 a2) :=
  ⟨rfl, rfl, toByte_lt _, toByte_lt _, toByte_lt _⟩
theorem EncodesInEightBytes.mulh (a0 : Reg) (a1 : Reg) (a2 : Reg) : EncodesInEightBytes.Statement (.mulh a0 a1 a2) :=
  ⟨rfl, rfl, toByte_lt _, toByte_lt _, toByte_lt _⟩
theorem EncodesInEightBytes.mulhu (a0 : Reg) (a1 : Reg) (a2 : Reg) : EncodesInEightBytes.Statement (.mulhu a0 a1 a2) :=
  ⟨rfl, rfl, toByte_lt _, toByte_lt _, toByte_lt _⟩
theorem EncodesInEightBytes.div (a0 : Reg) (a1 : Reg) (a2 : Reg) : EncodesInEightBytes.Statement (.div a0 a1 a2) :=
  ⟨rfl, rfl, toByte_lt _, toByte_lt _, toByte_lt _⟩
theorem EncodesInEightBytes.divu (a0 : Reg) (a1 : Reg) (a2 : Reg) : EncodesInEightBytes.Statement (.divu a0 a1 a2) :=
  ⟨rfl, rfl, toByte_lt _, toByte_lt _, toByte_lt _⟩
theorem EncodesInEightBytes.rem (a0 : Reg) (a1 : Reg) (a2 : Reg) : EncodesInEightBytes.Statement (.rem a0 a1 a2) :=
  ⟨rfl, rfl, toByte_lt _, toByte_lt _, toByte_lt _⟩
theorem EncodesInEightBytes.remu (a0 : Reg) (a1 : Reg) (a2 : Reg) : EncodesInEightBytes.Statement (.remu a0 a1 a2) :=
  ⟨rfl, rfl, toByte_lt _, toByte_lt _, toByte_lt _⟩
theorem EncodesInEightBytes.lw (a0 : Reg) (a1 : Word) (a2 : Reg) : EncodesInEightBytes.Statement (.lw a0 a1 a2) :=
  ⟨rfl, rfl, toByte_lt _, toByte_lt _, zero_field_lt⟩
theorem EncodesInEightBytes.lh (a0 : Reg) (a1 : Word) (a2 : Reg) : EncodesInEightBytes.Statement (.lh a0 a1 a2) :=
  ⟨rfl, rfl, toByte_lt _, toByte_lt _, zero_field_lt⟩
theorem EncodesInEightBytes.lhu (a0 : Reg) (a1 : Word) (a2 : Reg) : EncodesInEightBytes.Statement (.lhu a0 a1 a2) :=
  ⟨rfl, rfl, toByte_lt _, toByte_lt _, zero_field_lt⟩
theorem EncodesInEightBytes.lb (a0 : Reg) (a1 : Word) (a2 : Reg) : EncodesInEightBytes.Statement (.lb a0 a1 a2) :=
  ⟨rfl, rfl, toByte_lt _, toByte_lt _, zero_field_lt⟩
theorem EncodesInEightBytes.lbu (a0 : Reg) (a1 : Word) (a2 : Reg) : EncodesInEightBytes.Statement (.lbu a0 a1 a2) :=
  ⟨rfl, rfl, toByte_lt _, toByte_lt _, zero_field_lt⟩
theorem EncodesInEightBytes.sw (a0 : Reg) (a1 : Word) (a2 : Reg) : EncodesInEightBytes.Statement (.sw a0 a1 a2) :=
  ⟨rfl, rfl, toByte_lt _, toByte_lt _, zero_field_lt⟩
theorem EncodesInEightBytes.sh (a0 : Reg) (a1 : Word) (a2 : Reg) : EncodesInEightBytes.Statement (.sh a0 a1 a2) :=
  ⟨rfl, rfl, toByte_lt _, toByte_lt _, zero_field_lt⟩
theorem EncodesInEightBytes.sb (a0 : Reg) (a1 : Word) (a2 : Reg) : EncodesInEightBytes.Statement (.sb a0 a1 a2) :=
  ⟨rfl, rfl, toByte_lt _, toByte_lt _, zero_field_lt⟩
theorem EncodesInEightBytes.beq (a0 : Reg) (a1 : Reg) (a2 : Word) : EncodesInEightBytes.Statement (.beq a0 a1 a2) :=
  ⟨rfl, rfl, toByte_lt _, toByte_lt _, zero_field_lt⟩
theorem EncodesInEightBytes.bne (a0 : Reg) (a1 : Reg) (a2 : Word) : EncodesInEightBytes.Statement (.bne a0 a1 a2) :=
  ⟨rfl, rfl, toByte_lt _, toByte_lt _, zero_field_lt⟩
theorem EncodesInEightBytes.blez (a0 : Reg) (a1 : Word) : EncodesInEightBytes.Statement (.blez a0 a1) :=
  ⟨rfl, rfl, toByte_lt _, zero_field_lt, zero_field_lt⟩
theorem EncodesInEightBytes.bgtz (a0 : Reg) (a1 : Word) : EncodesInEightBytes.Statement (.bgtz a0 a1) :=
  ⟨rfl, rfl, toByte_lt _, zero_field_lt, zero_field_lt⟩
theorem EncodesInEightBytes.bltz (a0 : Reg) (a1 : Word) : EncodesInEightBytes.Statement (.bltz a0 a1) :=
  ⟨rfl, rfl, toByte_lt _, zero_field_lt, zero_field_lt⟩
theorem EncodesInEightBytes.bgez (a0 : Reg) (a1 : Word) : EncodesInEightBytes.Statement (.bgez a0 a1) :=
  ⟨rfl, rfl, toByte_lt _, zero_field_lt, zero_field_lt⟩
theorem EncodesInEightBytes.j (a0 : Word) : EncodesInEightBytes.Statement (.j a0) :=
  ⟨rfl, rfl, zero_field_lt, zero_field_lt, zero_field_lt⟩
theorem EncodesInEightBytes.jal (a0 : Word) : EncodesInEightBytes.Statement (.jal a0) :=
  ⟨rfl, rfl, zero_field_lt, zero_field_lt, zero_field_lt⟩
theorem EncodesInEightBytes.jr (a0 : Reg) : EncodesInEightBytes.Statement (.jr a0) :=
  ⟨rfl, rfl, toByte_lt _, zero_field_lt, zero_field_lt⟩
theorem EncodesInEightBytes.jalr (a0 : Reg) (a1 : Reg) : EncodesInEightBytes.Statement (.jalr a0 a1) :=
  ⟨rfl, rfl, toByte_lt _, zero_field_lt, toByte_lt _⟩
theorem EncodesInEightBytes.syscall (a0 : Word) : EncodesInEightBytes.Statement (.syscall a0) :=
  ⟨rfl, rfl, zero_field_lt, zero_field_lt, zero_field_lt⟩
theorem EncodesInEightBytes.brk (a0 : Word) : EncodesInEightBytes.Statement (.brk a0) :=
  ⟨rfl, rfl, zero_field_lt, zero_field_lt, zero_field_lt⟩
theorem EncodesInEightBytes.ei : EncodesInEightBytes.Statement .ei :=
  ⟨rfl, rfl, zero_field_lt, zero_field_lt, zero_field_lt⟩
theorem EncodesInEightBytes.di : EncodesInEightBytes.Statement .di :=
  ⟨rfl, rfl, zero_field_lt, zero_field_lt, zero_field_lt⟩
theorem EncodesInEightBytes.iret : EncodesInEightBytes.Statement .iret :=
  ⟨rfl, rfl, zero_field_lt, zero_field_lt, zero_field_lt⟩
theorem EncodesInEightBytes.raise (a0 : Word) : EncodesInEightBytes.Statement (.raise a0) :=
  ⟨rfl, rfl, zero_field_lt, zero_field_lt, zero_field_lt⟩
theorem EncodesInEightBytes.getpc (a0 : Reg) : EncodesInEightBytes.Statement (.getpc a0) :=
  ⟨rfl, rfl, zero_field_lt, zero_field_lt, toByte_lt _⟩
theorem EncodesInEightBytes.enablePaging : EncodesInEightBytes.Statement .enablePaging :=
  ⟨rfl, rfl, zero_field_lt, zero_field_lt, zero_field_lt⟩
theorem EncodesInEightBytes.disablePaging : EncodesInEightBytes.Statement .disablePaging :=
  ⟨rfl, rfl, zero_field_lt, zero_field_lt, zero_field_lt⟩
theorem EncodesInEightBytes.setPtbr (a0 : Reg) (a1 : Reg) : EncodesInEightBytes.Statement (.setPtbr a0 a1) :=
  ⟨rfl, rfl, zero_field_lt, toByte_lt _, toByte_lt _⟩
theorem EncodesInEightBytes.enterUser : EncodesInEightBytes.Statement .enterUser :=
  ⟨rfl, rfl, zero_field_lt, zero_field_lt, zero_field_lt⟩
theorem EncodesInEightBytes.getmode (a0 : Reg) : EncodesInEightBytes.Statement (.getmode a0) :=
  ⟨rfl, rfl, zero_field_lt, zero_field_lt, toByte_lt _⟩

end Sys2Proof.Laws
end

