-- ==== Sys2Proof/Tests/Slice0.lean ====
section
/-! SUPPORT. Tests of the model: words written out from the spec's encodings, the spec's own vectors (95_test_vectors.md)
one step at a time, and a witness for the hypotheses of every statement. Expected values are the spec's. -/

namespace Sys2Proof.Tests

open Sys2Proof.Machine Sys2Proof.Safety Sys2Proof.Certificates

/-! ## Well-formedness -/

/-- 48 R203: JALR with rd = rs has no meaning. -/
theorem test_wellFormed_refuses_jalr_same : (Instr.jalr 5 5).wellFormed = false := by decide
/-- 49 R216: RAISE above 255 has no meaning. -/
theorem test_wellFormed_refuses_raise_256 : (Instr.raise 256).wellFormed = false := by decide
/-- 49 R216: 255 is the highest number. -/
theorem test_wellFormed_admits_raise_255 : (Instr.raise 255).wellFormed = true := by decide

/-! ## Decoding of words written out from the spec (memory order) -/

/-- 95 S24, junk in every unused field. -/
theorem test_decode_nop : decode [0x00, 0xAA, 0xBB, 0xCC, 0xEF, 0xBE, 0xAD, 0xDE] = .ok (.nop) := by decide
/-- 95 E1, Appendix B. -/
theorem test_decode_add : decode [0x01, 0x0A, 0x0C, 0x05, 0x00, 0x00, 0x00, 0x00] = .ok (.add 5 10 12) := by decide
/-- 40 R121. -/
theorem test_decode_addu : decode [0x02, 0x01, 0x02, 0x03, 0x00, 0x00, 0x00, 0x00] = .ok (.addu 3 1 2) := by decide
/-- 40 R122. -/
theorem test_decode_sub : decode [0x03, 0x01, 0x02, 0x03, 0x00, 0x00, 0x00, 0x00] = .ok (.sub 3 1 2) := by decide
/-- 40 R123. -/
theorem test_decode_subu : decode [0x04, 0x01, 0x02, 0x03, 0x00, 0x00, 0x00, 0x00] = .ok (.subu 3 1 2) := by decide
/-- 95 E2, Appendix B. -/
theorem test_decode_addi : decode [0x05, 0x11, 0x03, 0x00, 0x2A, 0x00, 0x00, 0x00] = .ok (.addi 3 17 42) := by decide
/-- 40 R125. -/
theorem test_decode_addiu : decode [0x06, 0x1D, 0x1D, 0x00, 0x80, 0xFF, 0xFF, 0xFF] = .ok (.addiu 29 29 0xFFFFFF80) := by decide
/-- 41 R130. -/
theorem test_decode_and : decode [0x10, 0x01, 0x02, 0x03, 0x00, 0x00, 0x00, 0x00] = .ok (.and 3 1 2) := by decide
/-- 41 R131. -/
theorem test_decode_or : decode [0x11, 0x02, 0x00, 0x10, 0x00, 0x00, 0x00, 0x00] = .ok (.or 16 2 0) := by decide
/-- 41 R132. -/
theorem test_decode_xor : decode [0x12, 0x01, 0x02, 0x03, 0x00, 0x00, 0x00, 0x00] = .ok (.xor 3 1 2) := by decide
/-- 41 R133. -/
theorem test_decode_nor : decode [0x13, 0x01, 0x00, 0x03, 0x00, 0x00, 0x00, 0x00] = .ok (.nor 3 1 0) := by decide
/-- 41 R134. -/
theorem test_decode_andi : decode [0x14, 0x01, 0x03, 0x00, 0xFF, 0x00, 0x00, 0x00] = .ok (.andi 3 1 0xFF) := by decide
/-- 41 R135. -/
theorem test_decode_ori : decode [0x15, 0x06, 0x06, 0x00, 0x00, 0x20, 0x00, 0x00] = .ok (.ori 6 6 0x2000) := by decide
/-- 41 R136. -/
theorem test_decode_xori : decode [0x16, 0x01, 0x03, 0x00, 0xFF, 0xFF, 0xFF, 0xFF] = .ok (.xori 3 1 0xFFFFFFFF) := by decide
/-- 41 R137. -/
theorem test_decode_lui : decode [0x17, 0x00, 0x08, 0x00, 0x65, 0x87, 0x00, 0x00] = .ok (.lui 8 0x8765) := by decide
/-- 42 R140. -/
theorem test_decode_sll : decode [0x20, 0x00, 0x04, 0x02, 0x01, 0x00, 0x00, 0x00] = .ok (.sll 2 4 1) := by decide
/-- 42 R141. -/
theorem test_decode_srl : decode [0x21, 0x00, 0x01, 0x03, 0x04, 0x00, 0x00, 0x00] = .ok (.srl 3 1 4) := by decide
/-- 42 R142. -/
theorem test_decode_sra : decode [0x22, 0x00, 0x01, 0x03, 0x04, 0x00, 0x00, 0x00] = .ok (.sra 3 1 4) := by decide
/-- 42 R143. -/
theorem test_decode_sllv : decode [0x23, 0x02, 0x01, 0x03, 0x00, 0x00, 0x00, 0x00] = .ok (.sllv 3 1 2) := by decide
/-- 42 R144. -/
theorem test_decode_srlv : decode [0x24, 0x02, 0x01, 0x03, 0x00, 0x00, 0x00, 0x00] = .ok (.srlv 3 1 2) := by decide
/-- 42 R145. -/
theorem test_decode_srav : decode [0x25, 0x02, 0x01, 0x03, 0x00, 0x00, 0x00, 0x00] = .ok (.srav 3 1 2) := by decide
/-- 43 R150. -/
theorem test_decode_slt : decode [0x30, 0x01, 0x02, 0x03, 0x00, 0x00, 0x00, 0x00] = .ok (.slt 3 1 2) := by decide
/-- 43 R151. -/
theorem test_decode_sltu : decode [0x31, 0x01, 0x02, 0x03, 0x00, 0x00, 0x00, 0x00] = .ok (.sltu 3 1 2) := by decide
/-- 43 R152. -/
theorem test_decode_slti : decode [0x32, 0x01, 0x03, 0x00, 0xFF, 0xFF, 0xFF, 0xFF] = .ok (.slti 3 1 0xFFFFFFFF) := by decide
/-- 43 R153. -/
theorem test_decode_sltiu : decode [0x33, 0x01, 0x03, 0x00, 0x01, 0x00, 0x00, 0x00] = .ok (.sltiu 3 1 1) := by decide
/-- 44 R160. -/
theorem test_decode_mul : decode [0x40, 0x08, 0x08, 0x08, 0x00, 0x00, 0x00, 0x00] = .ok (.mul 8 8 8) := by decide
/-- 44 R161. -/
theorem test_decode_mulh : decode [0x41, 0x01, 0x02, 0x03, 0x00, 0x00, 0x00, 0x00] = .ok (.mulh 3 1 2) := by decide
/-- 44 R162. -/
theorem test_decode_mulhu : decode [0x42, 0x01, 0x02, 0x03, 0x00, 0x00, 0x00, 0x00] = .ok (.mulhu 3 1 2) := by decide
/-- 44 R163. -/
theorem test_decode_div : decode [0x43, 0x01, 0x02, 0x03, 0x00, 0x00, 0x00, 0x00] = .ok (.div 3 1 2) := by decide
/-- 44 R164. -/
theorem test_decode_divu : decode [0x44, 0x01, 0x02, 0x03, 0x00, 0x00, 0x00, 0x00] = .ok (.divu 3 1 2) := by decide
/-- 44 R165. -/
theorem test_decode_rem : decode [0x45, 0x01, 0x02, 0x03, 0x00, 0x00, 0x00, 0x00] = .ok (.rem 3 1 2) := by decide
/-- 44 R166. -/
theorem test_decode_remu : decode [0x46, 0x05, 0x06, 0x07, 0x00, 0x00, 0x00, 0x00] = .ok (.remu 7 5 6) := by decide
/-- 95 E3, Appendix B. -/
theorem test_decode_lw : decode [0x50, 0x02, 0x08, 0x00, 0x64, 0x00, 0x00, 0x00] = .ok (.lw 8 100 2) := by decide
/-- 45 R171. -/
theorem test_decode_lh : decode [0x51, 0x09, 0x0C, 0x00, 0x02, 0x00, 0x00, 0x00] = .ok (.lh 12 2 9) := by decide
/-- 45 R172. -/
theorem test_decode_lhu : decode [0x52, 0x09, 0x0D, 0x00, 0x02, 0x00, 0x00, 0x00] = .ok (.lhu 13 2 9) := by decide
/-- 45 R173. -/
theorem test_decode_lb : decode [0x53, 0x09, 0x0B, 0x00, 0x03, 0x00, 0x00, 0x00] = .ok (.lb 11 3 9) := by decide
/-- 45 R174. -/
theorem test_decode_lbu : decode [0x54, 0x09, 0x0A, 0x00, 0x00, 0x00, 0x00, 0x00] = .ok (.lbu 10 0 9) := by decide
/-- 46 R180. -/
theorem test_decode_sw : decode [0x58, 0x09, 0x08, 0x00, 0x00, 0x00, 0x00, 0x00] = .ok (.sw 8 0 9) := by decide
/-- 46 R181. -/
theorem test_decode_sh : decode [0x59, 0x09, 0x08, 0x00, 0x06, 0x00, 0x00, 0x00] = .ok (.sh 8 6 9) := by decide
/-- 46 R182. -/
theorem test_decode_sb : decode [0x5A, 0x09, 0x08, 0x00, 0x05, 0x00, 0x00, 0x00] = .ok (.sb 8 5 9) := by decide
/-- 47 R190. -/
theorem test_decode_beq : decode [0x60, 0x01, 0x02, 0x00, 0x20, 0x00, 0x00, 0x00] = .ok (.beq 1 2 0x20) := by decide
/-- 47 R191. -/
theorem test_decode_bne : decode [0x61, 0x07, 0x00, 0x00, 0x10, 0x00, 0x00, 0x00] = .ok (.bne 7 0 16) := by decide
/-- 47 R192. -/
theorem test_decode_blez : decode [0x62, 0x01, 0x00, 0x00, 0x18, 0x00, 0x00, 0x00] = .ok (.blez 1 0x18) := by decide
/-- 47 R193. -/
theorem test_decode_bgtz : decode [0x63, 0x08, 0x00, 0x00, 0xF0, 0xFF, 0xFF, 0xFF] = .ok (.bgtz 8 0xFFFFFFF0) := by decide
/-- 47 R194. -/
theorem test_decode_bltz : decode [0x64, 0x01, 0x00, 0x00, 0x10, 0x00, 0x00, 0x00] = .ok (.bltz 1 0x10) := by decide
/-- 47 R195. -/
theorem test_decode_bgez : decode [0x65, 0x00, 0x00, 0x00, 0x40, 0x00, 0x00, 0x00] = .ok (.bgez 0 0x40) := by decide
/-- 48 R200. -/
theorem test_decode_j : decode [0x70, 0x00, 0x00, 0x00, 0x10, 0x10, 0x00, 0x00] = .ok (.j 0x1010) := by decide
/-- 95 E4, Appendix B. -/
theorem test_decode_jal : decode [0x71, 0x00, 0x00, 0x00, 0x00, 0x10, 0x00, 0x00] = .ok (.jal 0x1000) := by decide
/-- 48 R202. -/
theorem test_decode_jr : decode [0x72, 0x1F, 0x00, 0x00, 0x00, 0x00, 0x00, 0x00] = .ok (.jr 31) := by decide
/-- 48 R203. -/
theorem test_decode_jalr : decode [0x73, 0x08, 0x00, 0x1F, 0x00, 0x00, 0x00, 0x00] = .ok (.jalr 31 8) := by decide
/-- 95 S1. -/
theorem test_decode_syscall : decode [0xF0, 0x00, 0x00, 0x00, 0x34, 0x12, 0x00, 0x00] = .ok (.syscall 0x1234) := by decide
/-- 95 S3. -/
theorem test_decode_brk : decode [0xF1, 0x00, 0x00, 0x00, 0x07, 0x00, 0x00, 0x00] = .ok (.brk 7) := by decide
/-- 49 R213. -/
theorem test_decode_ei : decode [0xF2, 0x00, 0x00, 0x00, 0x00, 0x00, 0x00, 0x00] = .ok (.ei) := by decide
/-- 49 R214. -/
theorem test_decode_di : decode [0xF3, 0x00, 0x00, 0x00, 0x00, 0x00, 0x00, 0x00] = .ok (.di) := by decide
/-- 49 R215. -/
theorem test_decode_iret : decode [0xF4, 0x00, 0x00, 0x00, 0x00, 0x00, 0x00, 0x00] = .ok (.iret) := by decide
/-- 49 R216. -/
theorem test_decode_raise : decode [0xF5, 0x00, 0x00, 0x00, 0x20, 0x00, 0x00, 0x00] = .ok (.raise 32) := by decide
/-- 49 R217. -/
theorem test_decode_getpc : decode [0xF6, 0x00, 0x00, 0x09, 0x00, 0x00, 0x00, 0x00] = .ok (.getpc 9) := by decide
/-- 49 R218. -/
theorem test_decode_enablePaging : decode [0xF7, 0x00, 0x00, 0x00, 0x00, 0x00, 0x00, 0x00] = .ok (.enablePaging) := by decide
/-- 49 R219. -/
theorem test_decode_disablePaging : decode [0xF8, 0x00, 0x00, 0x00, 0x00, 0x00, 0x00, 0x00] = .ok (.disablePaging) := by decide
/-- 49 R220. -/
theorem test_decode_setPtbr : decode [0xF9, 0x00, 0x06, 0x05, 0x00, 0x00, 0x00, 0x00] = .ok (.setPtbr 5 6) := by decide
/-- 49 R221. -/
theorem test_decode_enterUser : decode [0xFB, 0x00, 0x00, 0x00, 0x00, 0x00, 0x00, 0x00] = .ok (.enterUser) := by decide
/-- 49 R222. -/
theorem test_decode_getmode : decode [0xFC, 0x00, 0x00, 0x0B, 0x00, 0x00, 0x00, 0x00] = .ok (.getmode 11) := by decide

/-- 95 S21: 0x07 is reserved. -/
theorem test_decode_reserved : decode [0x07, 1, 2, 3, 0x55, 0, 0, 0] = .error (.reservedOpcode 0x07) := by decide
/-- 30 R93: a used register field of 32 has no meaning. -/
theorem test_decode_register_32 : decode [0x01, 0x20, 2, 3, 0, 0, 0, 0] = .error (.registerField 0x01 0x20) := by decide
/-- 95 Part 1: the word W of E2 is 0x051103000000002A. -/
theorem test_decodeTableWord_addi : decodeTableWord 64 0x051103000000002A = some (.addi 3 17 42) := by decide

/-! ## One step of each instruction

The common start state of 95 Part 2: MEM_SIZE 0x10000, the instruction at pc 0x1000, kernel mode, paging and interrupts
off, nothing pending. -/

/-- The common start state of 95_test_vectors.md Part 2. -/
def base : State := { State.reset with memSize := 0x10000#32 }

/-- The pattern M of 95 2.6: bytes at 0x2000. -/
def withM (s : State) : State :=
  { s with mem := s.mem.writeBytes 0x2000 [0x80, 0x91, 0xA2, 0xB3, 0x7F, 0x00, 0xFF, 0xFF] }

/-- The state with registers set. -/
def setRegs (s : State) : List (Reg × Word) → State
  | [] => s
  | (r, v) :: rest => setRegs (s.setReg r v) rest

/-- What a result's next state shows, none where there is no next state. -/
def shown {α : Type} (f : State → α) : Result → Option α
  | .next t => some (f t)
  | .fault _ | .refused _ => none

/-- The refusal a result is. -/
def refusal : Result → Option Refusal
  | .refused r => some r
  | .next _ | .fault _ => none

/-- Register r and the pc after one step of the instruction placed at the pc. -/
def regAfter (i : Instr) (r : Reg) (regs : List (Reg × Word)) : Option (Word × Word) :=
  shown (fun t => (t.getReg r, t.pc)) (step ((setRegs (withM base) regs).placeAtFetch (encode i)))

/-- The pc after one step of the instruction placed at the pc. -/
def pcAfter (i : Instr) (regs : List (Reg × Word)) : Option Word :=
  shown (fun t => t.pc) (step ((setRegs base regs).placeAtFetch (encode i)))

/-- 95 A1. -/
theorem test_add_wraps : regAfter (.add 3 1 2) 3 [(1, 0x7fffffff), (2, 0x1)] = some (0x80000000, 0x1008) := by decide
/-- 95 A2. -/
theorem test_addu : regAfter (.addu 3 1 2) 3 [(1, 0x7fffffff), (2, 0x1)] = some (0x80000000, 0x1008) := by decide
/-- 95 A10. -/
theorem test_add_to_r0 : regAfter (.add 0 1 2) 0 [(1, 0x5), (2, 0x6)] = some (0x0, 0x1008) := by decide
/-- 95 A4. -/
theorem test_sub_borrow : regAfter (.sub 3 1 2) 3 [(1, 0x0), (2, 0x1)] = some (0xffffffff, 0x1008) := by decide
/-- 95 A6. -/
theorem test_subu : regAfter (.subu 3 1 2) 3 [(1, 0x5), (2, 0x7)] = some (0xfffffffe, 0x1008) := by decide
/-- 95 A8. -/
theorem test_addi : regAfter (.addi 3 1 0x7FFFFFFF) 3 [(1, 0x7fffffff)] = some (0xfffffffe, 0x1008) := by decide
/-- 95 A9. -/
theorem test_addiu : regAfter (.addiu 3 1 0x12345678) 3 [(1, 0xf0000000)] = some (0x02345678, 0x1008) := by decide
/-- 95 G1. -/
theorem test_and : regAfter (.and 3 1 2) 3 [(1, 0xff00ff00), (2, 0x0ff00ff0)] = some (0x0f000f00, 0x1008) := by decide
/-- 95 G2. -/
theorem test_or : regAfter (.or 3 1 2) 3 [(1, 0xff00ff00), (2, 0x0ff00ff0)] = some (0xfff0fff0, 0x1008) := by decide
/-- 95 G3. -/
theorem test_xor : regAfter (.xor 3 1 2) 3 [(1, 0xff00ff00), (2, 0x0ff00ff0)] = some (0xf0f0f0f0, 0x1008) := by decide
/-- 95 G4. -/
theorem test_nor : regAfter (.nor 3 1 2) 3 [(1, 0xff00ff00), (2, 0x0ff00ff0)] = some (0x000f000f, 0x1008) := by decide
/-- 95 G6. -/
theorem test_andi : regAfter (.andi 3 1 0xFFFF0000) 3 [(1, 0x12345678)] = some (0x12340000, 0x1008) := by decide
/-- 95 G7. -/
theorem test_ori : regAfter (.ori 3 0 0xDEADBEEF) 3 [] = some (0xdeadbeef, 0x1008) := by decide
/-- 95 G8. -/
theorem test_xori : regAfter (.xori 3 1 0xFFFFFFFF) 3 [(1, 0x12345678)] = some (0xedcba987, 0x1008) := by decide
/-- 95 G10. -/
theorem test_lui : regAfter (.lui 3 0x12345678) 3 [] = some (0x56780000, 0x1008) := by decide
/-- 95 H1. -/
theorem test_sll : regAfter (.sll 3 2 4) 3 [(2, 0x12345678)] = some (0x23456780, 0x1008) := by decide
/-- 95 H8. -/
theorem test_sll_32 : regAfter (.sll 3 2 32) 3 [(2, 0x12345678)] = some (0x12345678, 0x1008) := by decide
/-- 95 H4. -/
theorem test_srl : regAfter (.srl 3 2 4) 3 [(2, 0x80000000)] = some (0x08000000, 0x1008) := by decide
/-- 95 H5. -/
theorem test_sra : regAfter (.sra 3 2 4) 3 [(2, 0x80000000)] = some (0xf8000000, 0x1008) := by decide
/-- 95 H7. -/
theorem test_sra_31 : regAfter (.sra 3 2 31) 3 [(2, 0x7fffffff), (3, 0x55)] = some (0x0, 0x1008) := by decide
/-- 95 H13. -/
theorem test_sllv : regAfter (.sllv 3 2 1) 3 [(1, 0x24), (2, 0x1)] = some (0x10, 0x1008) := by decide
/-- 95 H11. -/
theorem test_srlv : regAfter (.srlv 3 2 1) 3 [(1, 0x8), (2, 0xff000000)] = some (0x00ff0000, 0x1008) := by decide
/-- 95 H12. -/
theorem test_srav : regAfter (.srav 3 2 1) 3 [(1, 0x8), (2, 0xff000000)] = some (0xffff0000, 0x1008) := by decide
/-- 95 M3. -/
theorem test_slt : regAfter (.slt 3 1 2) 3 [(1, 0x80000000), (2, 0x7fffffff)] = some (0x1, 0x1008) := by decide
/-- 95 M2. -/
theorem test_sltu : regAfter (.sltu 3 1 2) 3 [(1, 0xffffffff), (2, 0x1), (3, 0x55)] = some (0x0, 0x1008) := by decide
/-- 95 M6. -/
theorem test_slti : regAfter (.slti 3 1 0xFFFFFFFF) 3 [(1, 0xfffffffe)] = some (0x1, 0x1008) := by decide
/-- 95 M8. -/
theorem test_sltiu : regAfter (.sltiu 3 1 0xFFFFFFFF) 3 [(1, 0xfffffffe)] = some (0x1, 0x1008) := by decide
/-- 95 Q3. -/
theorem test_mul : regAfter (.mul 3 1 2) 3 [(1, 0x12345678), (2, 0x9abcdef0)] = some (0x242d2080, 0x1008) := by decide
/-- 95 Q7. -/
theorem test_mulh : regAfter (.mulh 3 1 2) 3 [(1, 0x12345678), (2, 0x9abcdef0)] = some (0xf8cc93d6, 0x1008) := by decide
/-- 95 Q10. -/
theorem test_mulhu : regAfter (.mulhu 3 1 2) 3 [(1, 0x12345678), (2, 0x9abcdef0)] = some (0x0b00ea4e, 0x1008) := by decide
/-- 95 Q12. -/
theorem test_div : regAfter (.div 3 1 2) 3 [(1, 0xfffffff9), (2, 0x2)] = some (0xfffffffd, 0x1008) := by decide
/-- 95 Q26. -/
theorem test_div_overflow : regAfter (.div 3 1 2) 3 [(1, 0x80000000), (2, 0xffffffff)] = some (0x80000000, 0x1008) := by decide
/-- 95 Q19. -/
theorem test_divu : regAfter (.divu 3 1 2) 3 [(1, 0xfffffff9), (2, 0x2)] = some (0x7ffffffc, 0x1008) := by decide
/-- 95 Q23. -/
theorem test_divu_zero : regAfter (.divu 3 1 2) 3 [(1, 0x7), (2, 0x0), (3, 0xaaaaaaaa)] = some (0x0, 0x1008) := by decide
/-- 95 Q17. -/
theorem test_rem : regAfter (.rem 3 1 2) 3 [(1, 0x7), (2, 0xfffffffe)] = some (0x1, 0x1008) := by decide
/-- 95 Q24. -/
theorem test_rem_zero : regAfter (.rem 3 1 2) 3 [(1, 0x7), (2, 0x0), (3, 0xaaaaaaaa)] = some (0x0, 0x1008) := by decide
/-- 95 Q20. -/
theorem test_remu : regAfter (.remu 3 1 2) 3 [(1, 0xfffffff9), (2, 0x2)] = some (0x1, 0x1008) := by decide
/-- 95 L3. -/
theorem test_lw_negative_offset : regAfter (.lw 3 0xFFFFFFFC 1) 3 [(1, 0x2004)] = some (0xb3a29180, 0x1008) := by decide
/-- 95 L6. -/
theorem test_lh : regAfter (.lh 3 2 1) 3 [(1, 0x2000)] = some (0xffffb3a2, 0x1008) := by decide
/-- 95 L5. -/
theorem test_lhu : regAfter (.lhu 3 0 1) 3 [(1, 0x2000)] = some (0x00009180, 0x1008) := by decide
/-- 95 L11. -/
theorem test_lb : regAfter (.lb 3 3 1) 3 [(1, 0x2000)] = some (0xffffffb3, 0x1008) := by decide
/-- 95 L9. -/
theorem test_lbu : regAfter (.lbu 3 0 1) 3 [(1, 0x2000)] = some (0x80, 0x1008) := by decide

/-- 95 B1. -/
theorem test_beq : pcAfter (.beq 1 2 0x40) [(1, 0x5), (2, 0x5)] = some 0x1040 := by decide
/-- 95 B2. -/
theorem test_beq_untaken : pcAfter (.beq 1 2 0x40) [(1, 0x5), (2, 0x6)] = some 0x1008 := by decide
/-- 95 B3. -/
theorem test_bne : pcAfter (.bne 1 2 0xFFFFFFC0) [(1, 0x5), (2, 0x6)] = some 0xfc0 := by decide
/-- 95 B4. -/
theorem test_bne_untaken : pcAfter (.bne 1 2 0xFFFFFFC0) [(1, 0x5), (2, 0x5)] = some 0x1008 := by decide
/-- 95 B6. -/
theorem test_blez : pcAfter (.blez 1 16) [(1, 0xffffffff)] = some 0x1010 := by decide
/-- 95 B7. -/
theorem test_blez_untaken : pcAfter (.blez 1 16) [(1, 0x1)] = some 0x1008 := by decide
/-- 95 B8. -/
theorem test_bgtz : pcAfter (.bgtz 1 16) [(1, 0x1)] = some 0x1010 := by decide
/-- 95 B10. -/
theorem test_bgtz_untaken : pcAfter (.bgtz 1 16) [(1, 0x80000000)] = some 0x1008 := by decide
/-- 95 B11. -/
theorem test_bltz : pcAfter (.bltz 1 16) [(1, 0x80000000)] = some 0x1010 := by decide
/-- 95 B12. -/
theorem test_bltz_untaken : pcAfter (.bltz 1 16) [(1, 0x0)] = some 0x1008 := by decide
/-- 95 B13. -/
theorem test_bgez : pcAfter (.bgez 1 16) [(1, 0x0)] = some 0x1010 := by decide
/-- 95 B15. -/
theorem test_bgez_untaken : pcAfter (.bgez 1 16) [(1, 0xffffffff)] = some 0x1008 := by decide
/-- 95 J1. -/
theorem test_j : pcAfter (.j 0x2000) [] = some 0x2000 := by decide
/-- 95 J3. -/
theorem test_jr : pcAfter (.jr 5) [(5, 0x3000)] = some 0x3000 := by decide
/-- 95 S4. -/
theorem test_nop : pcAfter (.nop) [] = some 0x1008 := by decide
/-- 95 J2. -/
theorem test_jal : regAfter (.jal 0x2000) 31 [(31, 0x55)] = some (0x1008, 0x2000) := by decide
/-- 95 J5. -/
theorem test_jalr : regAfter (.jalr 6 5) 6 [(5, 0x3000)] = some (0x1008, 0x3000) := by decide
/-- 95 J7. -/
theorem test_jalr_same_refused : refusal (exec (.jalr 5 5) base) = some .jalrSameRegister := by decide
/-- 95 L14: a misaligned word with interrupts off stops the machine, the pc and R3 unchanged. -/
theorem test_lw_misaligned :
    shown (fun t => (t.getReg 3, t.pc, t.pending[2], t.running, t.stopReason))
        (exec (.lw 3 2 1) (setRegs base [(1, 0x2000), (3, 0x55)])) =
      some (0x55, 0x1000, true, false, some (.undeliverable 2)) := by decide
/-- 95 L16: the last word of memory is accessible. -/
theorem test_lw_last_word : regAfter (.lw 3 0 1) 3 [(1, 0xFFFC), (3, 0x55)] = some (0, 0x1008) := by decide
/-- 95 W1. -/
theorem test_sw : shown (fun t => t.mem.readBytes 0x2000 4) (exec (.sw 2 0 1) (setRegs base [(1, 0x2000), (2, 0x11223344)])) =
    some [0x44, 0x33, 0x22, 0x11] := by decide
/-- 95 W4: storing zeros leaves memory canonical. -/
theorem test_sw_zero : shown (fun t => (t.mem.readBytes 0x2000 5, t.mem.length)) (exec (.sw 0 0 1) (setRegs (withM base) [(1, 0x2000)])) =
    some ([0, 0, 0, 0, 0x7F], 3) := by decide
/-- 95 W2. -/
theorem test_sh : shown (fun t => t.mem.readBytes 0x2000 6) (exec (.sh 2 2 1) (setRegs base [(1, 0x2000), (2, 0x11223344)])) =
    some [0, 0, 0x44, 0x33, 0, 0] := by decide
/-- 95 W10: the last byte. -/
theorem test_sb : shown (fun t => t.mem.readBytes 0xFFFE 2) (exec (.sb 2 0 1) (setRegs base [(1, 0xFFFF), (2, 0x11223344)])) =
    some [0, 0x44] := by decide
/-- 95 W9: the first address outside memory. -/
theorem test_sw_out_of_bounds :
    shown (fun t => (t.mem, t.pc, t.pending[2], t.running)) (exec (.sw 2 0 1) (setRegs base [(1, 0x10000), (2, 1)])) =
      some ([], 0x1000, true, false) := by decide

/-! ## System instructions (95 2.10) -/

/-- The start state with interrupts enabled. -/
def enabled : State := { base with intEnabled := true }
/-- User mode with interrupts enabled. -/
def user : State := { enabled with kernelMode := false }

/-- 95 S1. -/
theorem test_syscall_undeliverable :
    shown (fun t => (t.pending[4], t.pc, t.running, t.stopReason)) (exec (.syscall 0x1234) base) =
      some (true, 0x1008, false, some (.undeliverable 4)) := by decide
/-- 95 S2. -/
theorem test_syscall : shown (fun t => (t.pending[4], t.pc, t.running)) (exec (.syscall 0) enabled) =
    some (true, 0x1008, true) := by decide
/-- 95 S3. -/
theorem test_brk : shown (fun t => (t.pending[5], t.pc, t.running)) (exec (.brk 7) enabled) = some (true, 0x1008, true) := by
  decide
/-- 95 S5. -/
theorem test_ei : shown (fun t => (t.intEnabled, t.pc)) (exec .ei base) = some (true, 0x1008) := by decide
/-- 95 S6. -/
theorem test_di : shown (fun t => (t.intEnabled, t.pc)) (exec .di enabled) = some (false, 0x1008) := by decide
/-- 95 S14: a privileged instruction in user mode. -/
theorem test_di_user : shown (fun t => (t.intEnabled, t.pending[7], t.pc, t.running)) (exec .di user) =
    some (true, true, 0x1000, true) := by decide
/-- 95 S8: the highest number. -/
theorem test_raise : shown (fun t => (t.pending[255], t.pending[254], t.pc)) (exec (.raise 255) enabled) =
    some (true, false, 0x1008) := by decide
/-- 95 S9. -/
theorem test_raise_256_refused : refusal (exec (.raise 256) base) = some .raiseNumberAbove255 := by decide
/-- 95 S13: not privileged. -/
theorem test_getpc : shown (fun t => (t.getReg 9, t.pc)) (exec (.getpc 9) { user with savedPc := 0x4440 }) =
    some (0x4440, 0x1008) := by decide
/-- 95 S11, S12. -/
theorem test_getmode : (shown (fun t => t.getReg 9) (exec (.getmode 9) base), shown (fun t => t.getReg 9) (exec (.getmode 9) user)) =
    (some 1, some 0) := by decide
/-- 95 S17: the base from rd, the count from rt. -/
theorem test_setPtbr : shown (fun t => (t.pageTableBase, t.numPages)) (exec (.setPtbr 5 6) (setRegs base [(5, 0x9000), (6, 0x400)])) =
    some (0x9000, 0x400) := by decide
/-- 95 S18. -/
theorem test_enablePaging : shown (fun t => (t.pagingEnabled, t.pc)) (exec .enablePaging base) = some (true, 0x1008) := by decide
/-- 95 S19. -/
theorem test_disablePaging : shown (fun t => (t.pagingEnabled, t.pc)) (exec .disablePaging { base with pagingEnabled := true }) =
    some (false, 0x1008) := by decide
/-- 95 S20. -/
theorem test_enterUser : shown (fun t => (t.kernelMode, t.pc)) (exec .enterUser base) = some (false, 0x1008) := by decide
/-- 95 S23: 0xFA is reserved, not privileged. -/
theorem test_reserved_user : shown (fun t => (t.pending[1], t.pending[7], t.pc)) (step (user.withFetchWord 64 0xFA00000000000000)) =
    some (true, false, 0x1000) := by decide +kernel
/-- 60 R262: SET_PTBR in user mode is a violation whatever its register fields hold. -/
theorem test_setPtbr_user_high_field :
    shown (fun t => (t.pending[7], t.pc)) (step (user.withFetchWord 64 0xF900284000000000)) = some (true, 0x1000) := by decide +kernel

/-! ## Fetch, dispatch, return, translation (95 2.11 to 2.13) -/

/-- 95 F1, F2: a bad pc stops the machine. -/
theorem test_fetch_stops :
    (shown (fun t => t.stopReason) (step { base with pc := 0x1004 }), shown (fun t => t.stopReason) (step { base with pc := 0x10000 })) =
      (some (some .pcMisaligned), some (some .pcOutOfBounds)) := by decide
/-- 95 F3: the last slot of memory can be executed. -/
theorem test_fetch_last_slot : shown (fun t => (t.pc, t.running)) (step { base with pc := 0xFFF8 }) = some (0x10000, true) := by
  decide

/-- The start state of 95 D1: interrupts 16 and 40 pending, handlers at 0x2000 and 0x2800, IRET at 0x2008. -/
def d1 : State :=
  let s := { (setRegs enabled [(4, 0x1004), (8, 0x1008), (29, 0x8000), (31, 0x101F)]) with
             pending := ((Vector.replicate 256 false).set 16 true).set 40 true }
  ((s.physWrite 0x80 4 0x2000).physWrite 0x140 4 0x2800).physWrite 0x2008 4 0xF4

/-- 95 D1, cycle 1: the lower number is dispatched and the handler's first instruction runs in the same cycle. -/
theorem test_dispatch_registers :
    shown (fun t => (t.pc, t.getReg 4, t.getReg 29, t.savedPc)) (step d1) = some (0x2008, 0x10, 0x7F80, 0x1000) := by decide +kernel
/-- 95 D1: the interrupt state after the same cycle. -/
theorem test_dispatch_flags :
    shown (fun t => (t.savedRegsAddr, t.intEnabled, t.pending[16], t.pending[40])) (step d1) =
      some (0x7F80, false, false, true) := by decide +kernel
/-- 95 D1: the frame holds R4, R29 and R31 as they were. -/
theorem test_dispatch_frame :
    shown (fun t => (t.physRead 0x7F90 4, t.physRead 0x7FF4 4, t.physRead 0x7FFC 4)) (step d1) =
      some (0x1004, 0x8000, 0x101F) := by decide +kernel
/-- 49 R215, the rule's example: IRET restores what the frame holds. -/
theorem test_iret :
    shown (fun t => (t.getReg 2, t.getReg 29, t.pc, t.kernelMode, t.intEnabled))
        (exec .iret ({ base with savedRegsAddr := 0x7F80, savedPc := 0x1030, outstanding := true }.physWrite 0x7F88 4 25 |>.physWrite 0x7FF4 4 0x8000)) =
      some (25, 0x8000, 0x1030, true, true) := by decide +kernel
/-- 49 R215, 93 U9: IRET before any dispatch is refused in kernel mode and a violation in user mode; a second IRET after one
dispatch is refused. -/
theorem test_iret_outside_dispatch :
    refusal (exec .iret State.reset) = some .iretOutsideDispatch ∧
      shown (fun t => t.pending[7]) (exec .iret user) = some true ∧
      shown (fun t => refusal (exec .iret t)) (exec .iret { base with outstanding := true }) = some (some .iretOutsideDispatch) := by
  decide +kernel
/-- 95 D2, D3, D6: no handler, no frame, no IVT word. -/
theorem test_dispatch_stops :
    ((setRegs enabled [(29, 0x8000)]).dispatch 33 |>.stopReason, (enabled.dispatch 33).stopReason,
      ((setRegs { enabled with memSize := 0x400 } [(29, 0x400)]).dispatch 200).stopReason) =
      (some (.noHandler 33), some .frameOutOfBounds, some .ivtOutOfBounds) := by decide +kernel
/-- 95 D7: a pending interrupt waits while interrupts are disabled. -/
theorem test_masked : shown (fun t => (t.pc, t.pending[16])) (step (base.pend 16)) = some (0x1008, true) := by decide

/-- The start state of 95 2.13. -/
def paged : State :=
  let s := { user with pagingEnabled := true, pageTableBase := 0x9000, numPages := 4, pc := 0 }
  (((s.physWrite 0x9000 4 0xA00F).physWrite 0x9004 4 0xB009).physWrite 0x9008 4 0xC00E).physWrite 0x900C 4 0xD007

/-- 95 T1, T4, T5, T6: a read of pages 1, 2, 3 and 4. -/
theorem test_translate_read :
    (paged.translate 0x1010 .read, paged.translate 0x2000 .read, paged.translate 0x3010 .read, paged.translate 0x4000 .read) =
      (.ok 0xB010, .error 8, .error 8, .error 8) := by decide
/-- 95 T2, T3, and a fetch of page 1: W and X are checked. -/
theorem test_translate_write_exec :
    (paged.translate 0x1010 .write, paged.translate 0x100 .write, paged.translate 0x1010 .exec) =
      (.error 8, .ok 0xA100, .error 8) := by decide
/-- 95 T11: an entry outside memory. -/
theorem test_translate_entry_outside : ({ paged with pageTableBase := 0xFFFC }).translate 0x1000 .read = .error 2 := by decide
/-- 95 T12, T13: kernel mode and paging off use physical addresses. -/
theorem test_translate_bypass :
    ({ paged with kernelMode := true }.translate 0x1010 .read, { paged with pagingEnabled := false }.translate 0x1010 .write) =
      (.ok 0x1010, .ok 0x1010) := by decide
/-- 95 T8: alignment is checked before translation. -/
theorem test_alignment_first : paged.memRead 0x4002 4 = .error 2 := by decide

/-! ## Reset, the host, the assembler -/

theorem test_reset_wf : State.reset.mem.wf := by decide
/-- 70 R288: the step of a stopped machine is no cycle. -/
theorem test_stopped : (match step { base with running := false } with | .fault f => some f | _ => none) = some (.stopped none) := by
  decide
/-- 95 E6: the handler word of interrupt 16. -/
theorem test_setHandler : ((EnvAction.setHandler 16 0x2000).apply base).mem = [(0x81, 0x20)] := by decide
/-- 60 R237: the host raises the timer's interrupt, and with interrupts enabled and no handler the machine stops. -/
theorem test_runWithHost :
    shown (fun t => t.stopReason) (runWithHost [[.enableInterrupts], [.raiseInterrupt 16]] (setRegs base [(29, 0x8000)])) =
      some (some (.noHandler 16)) := by decide +kernel
/-- 95 E11: LA R3, 0x12345678. -/
theorem test_expand_la : expand (.la 3 0x12345678) = [.lui 3 0x1234, .ori 3 3 0x5678] := by decide
/-- 30 R100: LW R8, 100(R2). -/
theorem test_operands_lw : operands (.lw 8 100 2) = [.reg 8, .mem 100 2] := by decide
/-- 95 E8 before cycle 3, interrupt 16 raised: handlers at 0x2000, which begins with EI, and 0x3000. -/
def e8 : State :=
  let s := (setRegs { enabled with pc := 0x1010, memSize := 0x20000 } [(29, 0x10000)]).pend 16
  ((s.physWrite 0x80 4 0x2000).physWrite 0x28 4 0x3000).physWrite 0x2000 4 0xF2
/-- 95 E8, cycle 3: dispatch of 16 and the handler's EI. -/
theorem test_e8_cycle3 :
    shown (fun t => (t.pc, t.getReg 29, t.getReg 4, t.intEnabled, t.savedPc, t.savedRegsAddr)) (step e8) =
      some (0x2008, 0xFF80, 16, true, 0x1010, 0xFF80) := by decide +kernel
/-- 95 E8, cycle 4, NESTED_CONTEXT = single_slot: the dispatch of 5 has no meaning. -/
theorem test_e8_cycle4 : shown (fun t => refusal (step (t.pend 5))) (step e8) = some (some .nestedDispatch) := by decide +kernel
/-- 95 E8, cycle 4 by the rules without the refusal: the one saved context is overwritten. -/
theorem test_e8_dispatch :
    shown (fun t => (((t.pend 5).dispatch 5).pc, ((t.pend 5).dispatch 5).getReg 29, ((t.pend 5).dispatch 5).savedPc,
      ((t.pend 5).dispatch 5).savedRegsAddr)) (step e8) = some (0x3000, 0xFF00, 0x2008, 0xFF00) := by decide +kernel
/-- 60 R263: the host sets up Scenario 3, user mode with paging on. -/
theorem test_writeField_scenario3 :
    ([.pageTableBase 0x9000, .numPages 1024, .pagingEnabled true, .kernelMode false].foldl
      (fun s w => (EnvAction.writeField w).apply s) State.reset) =
      { State.reset with kernelMode := false, pagingEnabled := true, pageTableBase := 0x9000, numPages := 1024 } := rfl
/-- 10 R35: the host starts a stopped machine again. -/
theorem test_writeField_running :
    shown (fun t => (t.pc, t.running)) (step ((EnvAction.writeField (.running true)).apply (base.stop .byHost))) =
      some (0x1008, true) := by decide

/-! ## Witnesses: states and operands that meet the hypotheses of the statements, clause by clause -/

/-- From what a step shows to the step itself. -/
theorem of_shown {α : Type} {f : State → α} {r : Result} {v : α} (h : shown f r = some v) : ∃ t, r = .next t ∧ f t = v := by
  cases r <;> simp_all [shown]

/-- The start state with an instruction placed at the pc. -/
def at1000 (i : Instr) (s : State) : State := s.placeAtFetch (encode i)

/-- Reserved opcodes at the ends of the ranges, fetched. -/
theorem witness_ReservedOpcodesAreIllegal :
    ∀ op ∈ [0x07#8, 0x74#8, 0xFA#8, 0xFF#8], base.running = true ∧ (base.placeAtFetch (Fields.toBytes ⟨op, 1, 2, 3, 4⟩)).fetch =
      .bytes (Fields.toBytes ⟨op, 1, 2, 3, 4⟩) ∧ op.toNat ∈ reservedOpcodes := by decide
theorem witness_notDue : NotDue base ∧ NotDue enabled ∧ NotDue paged := ⟨.inl rfl, .inr (by decide +kernel), .inr (by decide +kernel)⟩

/-- Fields that agree where the opcode uses them and differ elsewhere: a NOP, and an ADD with two immediates. -/
theorem witness_UnusedFieldsAreIgnored :
    (∀ l ∈ [usesRs, usesRt, usesRd, usesImm], 0x00 ∉ l) ∧ 0x01 ∉ usesImm ∧
      decodeFields ⟨0x01, 1, 2, 3, 0⟩ = decodeFields ⟨0x01, 1, 2, 3, 0xDEADBEEF⟩ := by decide

/-- Register fields at 31 and 32; kernel mode, SET_PTBR in user mode, and another opcode in user mode. -/
theorem witness_HighRegisterFieldsAreRefused :
    UsedFieldsNameRegisters ⟨0x01, 31, 31, 31, 0⟩ ∧ ¬ UsedFieldsNameRegisters ⟨0x01, 32, 0, 0, 0⟩ ∧
      ¬ UsedFieldsNameRegisters ⟨0xF9, 255, 0x28, 0, 0⟩ ∧ ¬ UsedFieldsNameRegisters ⟨0xFC, 0, 0, 32, 0⟩ ∧
      (0x01 : Nat) ∉ reservedOpcodes ∧ (0xF9 : Nat) ∉ reservedOpcodes ∧ (0xFC : Nat) ∉ reservedOpcodes := by
  unfold UsedFieldsNameRegisters; decide
theorem witness_HighRegisterFieldsAreRefused_fetch :
    (user.placeAtFetch (Fields.toBytes ⟨0xF9, 255, 0x28, 0, 0⟩)).fetch = .bytes (Fields.toBytes ⟨0xF9, 255, 0x28, 0, 0⟩) ∧
      (user.placeAtFetch (Fields.toBytes ⟨0xFC, 0, 0, 32, 0⟩)).fetch = .bytes (Fields.toBytes ⟨0xFC, 0, 0, 32, 0⟩) ∧
      (base.placeAtFetch (Fields.toBytes ⟨0x01, 32, 0, 0, 0⟩)).fetch = .bytes (Fields.toBytes ⟨0x01, 32, 0, 0, 0⟩) := by decide

theorem witness_StepRunsDecodedInstruction :
    base.running = true ∧ NotDue base ∧ (at1000 (.addi 3 17 42) base).fetch = .bytes (encode (.addi 3 17 42)) ∧
      decode (encode (.addi 3 17 42)) = .ok (.addi 3 17 42) := ⟨rfl, .inl rfl, by decide, by decide⟩
/-- Interrupt 16 is due at d1, and its handler's first instruction, eight zero bytes, is fetched. -/
theorem witness_StepRunsDecodedInstruction_dispatch :
    d1.running = true ∧ d1.outstanding = false ∧ d1.intEnabled = true ∧ d1.pending[16] = true ∧ (∀ m : IntNum, m < 16 → d1.pending[m] = false) ∧
      (d1.dispatch 16).running = true ∧ (d1.dispatch 16).fetch = .bytes [0, 0, 0, 0, 0, 0, 0, 0] ∧
      decode [0, 0, 0, 0, 0, 0, 0, 0] = .ok .nop := by decide +kernel
/-- Interrupt 33 is due, and its dispatch finds no handler. -/
theorem witness_StepRunsDecodedInstruction_stop :
    let s := setRegs (enabled.pend 33) [(29, 0x8000)]
    s.running = true ∧ s.outstanding = false ∧ s.intEnabled = true ∧ s.pending[33] = true ∧
      (∀ m : IntNum, m < 33 → s.pending[m] = false) ∧ (s.dispatch 33).running = false := by decide +kernel
theorem witness_StoppedMachineTakesNoStep : (base.stop .pcMisaligned).running = false := rfl
/-- A misaligned pc, the first pc out of bounds, the last one in bounds, and a fetch from an unmapped page. -/
theorem witness_FetchOutcomes :
    0x1004 % 8 ≠ 0 ∧ ({ base with pc := 0x10000 }).translate 0x10000 .exec = .ok 0x10000 ∧ base.memSize.toNat < 0x10000 + 8 ∧
      0xFFF8 + 8 ≤ base.memSize.toNat ∧ ({ paged with pc := 0x4000 }).translate 0x4000 .exec = .error 8 := by decide

theorem witness_LowestPendingInterruptFirst : d1.intEnabled = true ∧ d1.pending[40] = true := by decide +kernel
/-- The step that dispatches interrupt 16 clears its bit. -/
theorem witness_PendingClearsOnlyAtDispatch :
    ∃ t, step d1 = .next t ∧ d1.pending[16] = true ∧ t.pending[16] = false := by
  obtain ⟨t, h, e⟩ := of_shown test_dispatch_flags
  exact ⟨t, h, by decide +kernel, by simp only [Prod.mk.injEq] at e; exact e.2.2.1⟩
/-- A frame that ends where memory ends; an IVT entry outside memory; no handler; a handler. -/
theorem witness_DispatchEffect :
    ((setRegs base [(29, 0x10000)]).getReg 29 - 128#32).toNat + 128 = base.memSize.toNat ∧
      ({ base with memSize := 0x400 }).memSize.toNat < 8 * 200 + 4 ∧
      littleEndian ((setRegs base [(29, 0x8000)]).dispatch 33) (8 * 33) 4 = 0 ∧
      littleEndian (d1.dispatch 16) (8 * 16) 4 = 0x2000 := by decide +kernel
/-- The first frame out of bounds, and R29 = 0, whose frame wraps to the top of the address space. -/
theorem witness_DispatchWithoutFrameStops :
    base.memSize.toNat < ((setRegs base [(29, 0x10001)]).getReg 29 - 128#32).toNat + 128 ∧
      base.memSize.toNat < (base.getReg 29 - 128#32).toNat + 128 := by decide
/-- The handler's first state itself. -/
theorem witness_DispatchThenIretRestores :
    (d1.getReg 29 - 128#32).toNat + 128 ≤ d1.memSize.toNat ∧ (d1.dispatch 16).kernelMode = true ∧
      SameSaved (d1.dispatch 16) (d1.dispatch 16) ∧ (d1.dispatch 16).memSize = d1.memSize :=
  ⟨by decide +kernel, by decide +kernel, ⟨⟨rfl, rfl, rfl⟩, rfl⟩, by decide +kernel⟩
/-- A state in which one dispatch is outstanding, one in which none is, and frames that end at and one byte past the end of
memory. -/
theorem witness_IretEffect :
    ({ base with outstanding := true }).outstanding = true ∧ base.outstanding = false ∧ base.kernelMode = true ∧
      (0xFF80#32).toNat + 128 ≤ base.memSize.toNat ∧ base.memSize.toNat < (0xFF81#32).toNat + 128 := by
  decide
theorem witness_SyscallWithInterruptsOffEndsTheRun :
    base.running = true ∧ base.intEnabled = false ∧ (at1000 (.syscall 7) base).fetch = .bytes (encode (.syscall 7)) ∧
      (at1000 (.brk 7) base).fetch = .bytes (encode (.brk 7)) := by decide
/-- A bit raised with interrupts disabled, and a step. -/
theorem witness_RaisingOnlySetsThePendingBit :
    ∃ t, (base.pend 255).intEnabled = false ∧ (base.pend 255).pending[255] = true ∧ step (base.pend 255) = .next t := by
  obtain ⟨t, h, -⟩ := of_shown (f := fun t => t.pc) (v := 0x1008) (r := step (base.pend 255)) (by decide)
  exact ⟨t, rfl, by decide, h⟩
theorem witness_RaiseAbove255IsRefused : 256 ≤ (256#32).toNat := by decide
/-- A privileged instruction, and one that is not and completes in user mode. -/
theorem witness_PrivilegedInUserModeFaults :
    user.kernelMode = false ∧ Privileged (.setPtbr 5 6) ∧ ¬ Privileged (.getmode 9) ∧ ∃ t, exec (.getmode 9) user = .next t :=
  ⟨rfl, by simp [Privileged], by simp [Privileged], _, rfl⟩
theorem witness_kernelMode : base.kernelMode = true := rfl
/-- Control state that changes: the flag by EI, the mode by ENTER_USER and by IRET, the paging flag, the table, a bit. -/
theorem witness_ControlStateWriters :
    shown (fun t => t.intEnabled) (exec .ei base) = some true ∧ shown (fun t => t.kernelMode) (exec .enterUser base) = some false ∧
      shown (fun t => t.kernelMode) (exec .iret { base with savedMode := false, outstanding := true }) = some false ∧
      shown (fun t => t.pagingEnabled) (exec .enablePaging base) = some true ∧
      shown (fun t => t.numPages) (exec (.setPtbr 5 6) (setRegs base [(6, 4)])) = some 4 ∧
      shown (fun t => t.pending[8]) (exec (.lw 3 0x4000 0) paged) = some true := by decide +kernel
/-- User to kernel mode by a dispatch, kernel to user mode by ENTER_USER. -/
theorem witness_ModeTransitions :
    (∃ t, step { d1 with kernelMode := false } = .next t ∧ t.kernelMode = true) ∧
      ∃ t, step (at1000 .enterUser base) = .next t ∧ t.kernelMode = false :=
  ⟨of_shown (by decide +kernel), of_shown (by decide)⟩

/-- The largest exact shift amount, as an immediate and in a register. -/
theorem witness_ShiftsByUpTo31 : (31#32).toNat < 32 ∧ ((setRegs base [(1, 31)]).getReg 1).toNat < 32 := by decide
theorem witness_UnsignedDivision : (setRegs base [(2, 1)]).getReg 2 ≠ 0#32 := by decide
/-- The most negative dividend by 1, next to the overflow. -/
theorem witness_SignedDivision :
    (setRegs base [(1, 0x80000000), (2, 1)]).getReg 2 ≠ 0#32 ∧
      ¬ ((setRegs base [(1, 0x80000000), (2, 1)]).getReg 1 = 0x80000000#32 ∧
        (setRegs base [(1, 0x80000000), (2, 1)]).getReg 2 = 0xFFFFFFFF#32) := by decide
theorem witness_DivisionCorners :
    base.getReg 2 = 0#32 ∧ (setRegs base [(1, 0x80000000), (2, 0xFFFFFFFF)]).getReg 1 = 0x80000000#32 ∧
      (setRegs base [(1, 0x80000000), (2, 0xFFFFFFFF)]).getReg 2 = 0xFFFFFFFF#32 := by decide

/-- The last word, halfword and byte of memory in kernel mode, and a mapped page in user mode. -/
theorem witness_LoadsReadMemory :
    base.translate (base.effectiveAddress 0 0xFFFC) .read = .ok 0xFFFC ∧ (base.effectiveAddress 0 0xFFFC).toNat % 4 = 0 ∧
      (0xFFFC#32).toNat + 4 ≤ base.memSize.toNat ∧ (0xFFFE#32).toNat + 2 ≤ base.memSize.toNat ∧
      (0xFFFF#32).toNat + 1 ≤ base.memSize.toNat ∧ paged.translate (paged.effectiveAddress 0 0x1010) .read = .ok 0xB010 := by
  decide
/-- The same for stores. -/
theorem witness_StoresWriteOnlyTheirBytes :
    base.translate (base.effectiveAddress 0 0xFFFC) .write = .ok 0xFFFC ∧
      (base.effectiveAddress 0 0xFFFE).toNat % 2 = 0 ∧ paged.translate (paged.effectiveAddress 0 0x100) .write = .ok 0xA100 := by
  decide
/-- A misaligned word, the first word out of bounds, an unmapped page. -/
theorem witness_FailedAccessesRaise :
    AccessRaises base (base.effectiveAddress 0 2) 4 .read 2 ∧ AccessRaises base (base.effectiveAddress 0 0x10000) 4 .write 2 ∧
      AccessRaises paged (paged.effectiveAddress 0 0x4000) 1 .read 8 ∧
      AccessRaises paged (paged.effectiveAddress 0 0x1010) 2 .write 8 :=
  ⟨.inl (by decide), .inr ⟨by decide, .inr ⟨0x10000, by decide, by decide, rfl⟩⟩, .inr ⟨by decide, .inl (by decide)⟩,
    .inr ⟨by decide, .inl (by decide)⟩⟩
/-- The last word of memory, and offsets 2 and 3 in it. -/
theorem witness_NarrowLoadsSeeTheStoredWord :
    ∃ t, base.kernelMode = true ∧ exec (.sw 2 0xFFFC 0) base = .next t ∧ (base.effectiveAddress 0 0xFFFC).toNat % 4 = 0 ∧
      (base.effectiveAddress 0 0xFFFC).toNat + 4 ≤ base.memSize.toNat ∧ (3#32).toNat < 4 ∧ (2#32).toNat % 2 = 0 :=
  ⟨_, rfl, rfl, by decide, by decide, by decide, by decide⟩
theorem witness_JalrLinksAndJumps : (6 : Reg) ≠ 5 ∧ (0 : Reg) ≠ 5 ∧ (5 : Reg) = 5 := by decide

theorem witness_TranslationAppliesInUserPagingOnly :
    base.kernelMode = true ∧ user.pagingEnabled = false ∧ paged.kernelMode = false ∧ paged.pagingEnabled = true ∧
      paged.translate 0x1010 .read = .ok 0xB010 ∧ paged.dataAddress 0x1010 2 .read = .ok 0xB010 ∧
      (at1000 .nop paged).fetch = .bytes (encode .nop) := by decide
/-- The first page without an entry, and the last page with one. -/
theorem witness_PageFaultCauses :
    paged.kernelMode = false ∧ paged.pagingEnabled = true ∧ paged.numPages.toNat ≤ (0x4000#32).toNat / 4096 ∧
      (0x3FFF#32).toNat / 4096 < paged.numPages.toNat ∧ EntryInMemory paged ((0x3FFF#32).toNat / 4096) := by
  unfold EntryInMemory; decide
/-- A page with every permission, and a translated address. -/
theorem witness_TranslatedAddress :
    UserPage paged 0 ∧ (pageEntry paged 0).testBit 1 = true ∧ (pageEntry paged 0).testBit 2 = true ∧
      paged.translate 0xFFF .exec = .ok 0xAFFF ∧ ({ paged with pageTableBase := 0xFFFC }).translate 0x1000 .read = .error 2 := by
  unfold UserPage EntryInMemory; decide
/-- A fetch from the last slot of a page. -/
theorem witness_NoAccessCrossesAPage : (0xFF8#32).toNat % 8 = 0 ∧ 7 < 8 ∧ paged.translate 0xFF8 .exec = .ok 0xAFF8 := by decide

/-- A user store that changes the first byte of its page. -/
theorem witness_UserStoresStayInWritablePages :
    ∃ t, exec (.sb 2 0 0) (setRegs paged [(2, 7)]) = .next t ∧ t.mem.read 0xA000 ≠ (setRegs paged [(2, 7)]).mem.read 0xA000 ∧
      (setRegs paged [(2, 7)]).kernelMode = false ∧ (setRegs paged [(2, 7)]).pagingEnabled = true := by
  refine ⟨_, rfl, ?_, rfl, rfl⟩; decide
/-- Two states that differ in a byte that no page maps. -/
theorem witness_UserStepsReadOnlyTheirPages :
    let u : State := { paged with mem := paged.mem.write 0x8000 1 }
    paged.running = true ∧ NotDue paged ∧ SameButBytes paged u ∧
      (∀ page, page < paged.numPages.toNat → EntryInMemory paged page → ∀ k, k < 4 →
        u.mem.read (paged.pageTableBase.toNat + 4 * page + k) = paged.mem.read (paged.pageTableBase.toNat + 4 * page + k)) ∧
      (∀ a, UserReadable paged a → u.mem.read a = paged.mem.read a) ∧ ∃ t, step paged = .next t := by
  refine ⟨rfl, .inr (by decide +kernel), rfl, fun page hp _ k hk => ?_, fun a ⟨page, hu, ha⟩ => ?_, ?_⟩
  · have hb : paged.pageTableBase.toNat = 0x9000 := rfl
    rw [read_write, if_neg (by omega)]
  · rw [read_write, if_neg]
    rintro rfl
    have h4 : page < 4 := hu.1
    have key : ∀ page < 4, 0x8000 / 4096 ≠ pageEntry paged page / 4096 := by decide
    exact key page h4 ha
  · obtain ⟨t, h, -⟩ := of_shown (f := fun t => t.pc) (v := 8) (r := step paged) (by decide +kernel)
    exact ⟨t, h⟩

/-- The state after reset meets the invariant and steps. -/
theorem witness_StepKeepsTheInvariant : MachineInv State.reset ∧ ∃ t, step State.reset = .next t := by
  refine ⟨by unfold MachineInv; decide, ?_⟩
  obtain ⟨t, h, -⟩ := of_shown (f := fun t => t.pc) (v := 0x1008) (r := step State.reset) (by decide)
  exact ⟨t, h⟩
/-- Operands that meet each branch's condition, the signed ones at the ends of their ranges. -/
theorem witness_LabelOperandsReachTheirLabels :
    (setRegs base [(1, 7), (2, 7)]).getReg 1 = (setRegs base [(1, 7), (2, 7)]).getReg 2 ∧
      (setRegs base [(1, 7)]).getReg 1 ≠ (setRegs base [(1, 7)]).getReg 2 ∧ (base.getReg 1).toInt ≤ 0 ∧
      0 < ((setRegs base [(1, 1)]).getReg 1).toInt ∧ ((setRegs base [(1, 0x80000000)]).getReg 1).toInt < 0 ∧
      0 ≤ ((setRegs base [(1, 0x7FFFFFFF)]).getReg 1).toInt := by decide
/-- The last handler word, in the smallest memory that holds it and in one a byte smaller; an image that fills memory and one
a byte too long; the last byte of memory and the first outside. -/
theorem witness_HostActions :
    8 * (255 : IntNum).val + 4 ≤ (0x7FC#32).toNat ∧ (0x7FB#32).toNat < 8 * (255 : IntNum).val + 4 ∧
      0xFFF8 + (encode .nop).length ≤ base.memSize.toNat ∧ base.memSize.toNat < 0xFFF9 + (encode .nop).length ∧
      0xFFFF < base.memSize.toNat ∧ base.memSize.toNat ≤ 0x10000 := by decide
/-- A running and a stopped state whose label agrees with `running`. -/
theorem witness_HostWritesAnyField :
    base.running = base.stopReason.isNone ∧ (base.stop .byHost).running = (base.stop .byHost).stopReason.isNone := by decide
/-- A run in which the host acts, from the state after reset. -/
theorem witness_HostActionsKeepTheInvariant :
    MachineInv State.reset ∧ ∃ t, runWithHost [[.writeByte 0x1000 0], [.setEntry 0x2000]] State.reset = .next t := by
  refine ⟨by unfold MachineInv; decide, ?_⟩
  obtain ⟨t, h, -⟩ := of_shown (f := fun t => t.pc) (v := 0x2008)
    (r := runWithHost [[.writeByte 0x1000 0], [.setEntry 0x2000]] State.reset) (by decide)
  exact ⟨t, h⟩
/-- A running state with a dispatch outstanding: with an interrupt due, and with none, where it steps and where it executes
IRET. -/
theorem witness_NestedDispatchIsRefused :
    let s : State := { base with outstanding := true }
    (({ enabled with outstanding := true }).pend 5).running = true ∧ (({ enabled with outstanding := true }).pend 5).pending[5] = true ∧
      (∃ t, step s = .next t ∧ s.outstanding = true) ∧ ∃ t, step (at1000 .iret s) = .next t ∧ t.outstanding = false := by
  refine ⟨by decide, by decide, ?_, of_shown (by decide +kernel)⟩
  obtain ⟨t, h, -⟩ := of_shown (f := fun t => t.pc) (v := 0x1008) (r := step { base with outstanding := true }) (by decide)
  exact ⟨t, h, rfl⟩

end Sys2Proof.Tests
end

