-- ==== Sys2Proof/Proofs/PageFault.lean ====
section
/-! SUPPORT. The page-table walk in the numbers of Safety.lean, and the causes of a page fault (20_memory.md R66 to R70). -/

namespace Sys2Proof.Machine

open Sys2Proof.Safety

variable {s : State} {va : Word} {acc : AccessKind}

theorem translates_of_userPaging (hk : s.kernelMode = false) (hp : s.pagingEnabled = true) : s.translates = true := by
  simp [State.translates, hk, hp]

/-! ## The entry that a walk reads, as a number -/

theorem pageNumber_toNat : (pageNumber va).toNat = va.toNat / 4096 := by
  have hva := va.isLt
  simp only [pageNumber, BitVec.extractLsb'_toNat, Nat.shiftRight_eq_div_pow]
  omega

theorem inBounds_pteAddress :
    s.inBounds (s.pteAddress (pageNumber va)) 4 = true ↔ EntryInMemory s (va.toNat / 4096) := by
  rw [inBounds_iff, State.pteAddress, pageNumber_toNat, EntryInMemory]

theorem pte_toNat : (s.pte va).toNat = pageEntry s (va.toNat / 4096) := by
  rw [State.pte, physRead_four_toNat, State.pteAddress, pageNumber_toNat, pageEntry]

theorem pte_getLsbD (k : Nat) : (s.pte va).getLsbD k = (pageEntry s (va.toNat / 4096)).testBit k := by
  rw [← pte_toNat, BitVec.testBit_toNat]

/-- For a page with an entry in memory, what is left of `UserPage` is that V and U are set (20_memory.md R69). -/
theorem userPage_iff_pte (hn : va.toNat / 4096 < s.numPages.toNat) (he : EntryInMemory s (va.toNat / 4096)) :
    UserPage s (va.toNat / 4096) ↔ pteValid (s.pte va) = true ∧ pteUser (s.pte va) = true := by
  simp only [UserPage, pteValid, pteUser, pte_getLsbD, hn, he, true_and]

/-! ## The permission for each kind of access (20_memory.md R69) -/

theorem ptePermits_read (pte : Word) : ptePermits pte .read = true ↔ pteValid pte = true ∧ pteUser pte = true := by
  simp [ptePermits]

theorem ptePermits_write (pte : Word) :
    ptePermits pte .write = true ↔ (pteValid pte = true ∧ pteUser pte = true) ∧ pteWritable pte = true := by
  simp [ptePermits]

theorem ptePermits_exec (pte : Word) :
    ptePermits pte .exec = true ↔ (pteValid pte = true ∧ pteUser pte = true) ∧ pteExecutable pte = true := by
  simp [ptePermits]

/-! ## The outcomes of a walk (20_memory.md R70) -/

/-- A page number at or above `num_pages` faults before any entry is read. -/
theorem translate_of_numPages_le (ht : s.translates = true) (hn : s.numPages.toNat ≤ va.toNat / 4096) :
    s.translate va acc = .error IntNum.pageFault := by
  rw [State.translate, if_pos ht, if_neg (by rw [pageNumber_toNat]; omega)]

/-- With the entry in memory, its permission bits alone decide the walk. -/
theorem translate_of_entryInMemory (ht : s.translates = true) (hn : va.toNat / 4096 < s.numPages.toNat)
    (he : EntryInMemory s (va.toNat / 4096)) :
    s.translate va acc =
      if ptePermits (s.pte va) acc then .ok (ptePhysical (s.pte va) (pageOffset va)) else .error IntNum.pageFault := by
  rw [State.translate, if_pos ht, if_pos (by rwa [pageNumber_toNat]), if_pos (inBounds_pteAddress.2 he)]
  rfl

theorem translate_eq_pageFault_iff (ht : s.translates = true) (hn : va.toNat / 4096 < s.numPages.toNat)
    (he : EntryInMemory s (va.toNat / 4096)) :
    s.translate va acc = .error IntNum.pageFault ↔ ¬ ptePermits (s.pte va) acc = true := by
  rw [translate_of_entryInMemory ht hn he]
  split <;> simp [*]

/-- Settles O46: the walk faults on the page bound, and past it exactly where the entry does not permit the access; the
permission of each kind of access is then read off the entry's bits. -/
theorem pageFaultCauses : Obligations.PageFaultCauses := by
  intro s va hk hp
  have ht := translates_of_userPaging hk hp
  refine ⟨fun hn acc => translate_of_numPages_le ht hn, fun hn he => ?_⟩
  have fault (acc : AccessKind) : s.translate va acc = .error 8 ↔ ¬ ptePermits (s.pte va) acc = true :=
    translate_eq_pageFault_iff ht hn he
  rw [userPage_iff_pte hn he, ← pte_getLsbD, ← pte_getLsbD]
  refine ⟨?read, ?write, ?exec⟩
  case read => rw [fault, ptePermits_read]
  case write => rw [fault, ptePermits_write, pteWritable]
  case exec => rw [fault, ptePermits_exec, pteExecutable]

end Sys2Proof.Machine
end

