-- ==== Sys2Proof/Proofs/Interrupts.lean ====
section
/-! SUPPORT. Which interrupt the check takes, and that the pending bits are set one at a time and cleared by nothing but a
dispatch (60_exceptions.md R231 to R233, R242). -/

namespace Sys2Proof.Machine

open Sys2Proof.Safety

variable {s t : State} {n : IntNum}

/-! ## The interrupt check (60_exceptions.md R232, R233) -/

/-- Where some interrupt is pending there is a least one, and it is not above the one given. -/
theorem exists_leastPending (hn : s.pending[n] = true) : ∃ m, s.leastPending = some m ∧ m ≤ n := by
  cases hm : s.leastPending with
  | none => simp [leastPending_eq_none.1 hm n] at hn
  | some m =>
    obtain ⟨-, none_below⟩ := leastPending_eq_some.1 hm
    refine ⟨m, rfl, le_of_not_gt fun hlt => ?_⟩
    simp [none_below n hlt] at hn

theorem interruptCheck_of_leastPending (hi : s.intEnabled = true) (hn : s.leastPending = some n) :
    s.interruptCheck = s.dispatch n := by
  simp [State.interruptCheck, hi, hn]

/-- Settles O9: the check dispatches the least pending interrupt, below which none is pending. -/
theorem lowestPendingInterruptFirst : Obligations.LowestPendingInterruptFirst := by
  intro s n hi hn
  obtain ⟨m, hm, hle⟩ := exists_leastPending hn
  obtain ⟨hpending, none_below⟩ := leastPending_eq_some.1 hm
  exact ⟨m, hle, hpending, none_below, interruptCheck_of_leastPending hi hm⟩

/-! ## What becomes of the pending bits (60_exceptions.md R240 to R242) -/

@[simp] theorem returnFromInterrupt_pending : s.returnFromInterrupt.pending = s.pending := by
  rcases returnFromInterrupt_cases (s := s) with ⟨-, h⟩ | ⟨-, h⟩
  · rw [h]
  · rw [h, stop_pending]

/-- An instruction leaves the pending bits alone or sets one of them: only a dispatch clears one. -/
theorem Effect.pending (h : Effect s t) : t.pending = s.pending ∨ ∃ k : IntNum, t.pending = s.pending.set k true := by
  cases h with
  | fault k => exact .inr ⟨k, raiseFault_pending s k⟩
  | trap k => exact .inr ⟨k, raiseTrap_pending s k⟩
  | pend k => exact .inr ⟨k, rfl⟩
  | iret => exact .inl returnFromInterrupt_pending
  | _ => exact .inl (by simp)

theorem getElem_set_true_of_getElem {v : Vector Bool 256} (k : IntNum) (h : v[n] = true) : (v.set k true)[n] = true := by
  rw [getElem_pending_set, h, ite_self]

theorem Effect.keeps_pending (h : Effect s t) (hn : s.pending[n] = true) : t.pending[n] = true := by
  rcases h.pending with e | ⟨k, e⟩ <;> rw [e]
  · exact hn
  · exact getElem_set_true_of_getElem k hn

/-- With no interrupt due, a step keeps every pending bit: without a dispatch it stops, raises or executes. -/
theorem step_keeps_pending (hdue : NotDue s) (h : step s = .next t) (hn : s.pending[n] = true) : t.pending[n] = true := by
  obtain ⟨-, -, hcases⟩ := step_cases h
  rw [interruptCheck_of_notDue hdue] at hcases
  rcases hcases with ⟨-, rfl⟩ | ⟨-, ⟨reason, -, rfl⟩ | ⟨k, rfl⟩ | ⟨bs, i, -, -, hexec⟩⟩
  · exact hn
  · rwa [stop_pending]
  · exact (Effect.fault k).keeps_pending hn
  · exact (exec_effect hexec).keeps_pending hn

/-! ## RAISE (49_system.md R216, 60_exceptions.md R242) -/

theorem exec_raise (s : State) (n : IntNum) : exec (.raise (BitVec.ofNat 32 n.val)) s = .next (s.pend n).advance := by
  have hval : (BitVec.ofNat 32 n.val).toNat = n.val := by
    rw [BitVec.toNat_ofNat, Nat.mod_eq_of_lt (by omega)]
  simp [exec, execRaise, hval]

/-- Settles O17: a masked step keeps its pending bits since it dispatches nothing, RAISE sets its bit and goes to the next
instruction, and the host's raising is that setting of the bit alone. -/
theorem raisingOnlySetsThePendingBit : Obligations.RaisingOnlySetsThePendingBit := by
  refine ⟨fun n s t hi hn h => step_keeps_pending (.inl hi) h hn, fun n s => ⟨?raise, ?host⟩⟩
  case raise =>
    refine ⟨(s.pend n).advance, exec_raise s n, pend_pendingSet s n, rfl, fun _ => rfl, ⟨rfl, fun _ => rfl⟩, ?_⟩
    exact ⟨⟨rfl, rfl, rfl⟩, ⟨⟨rfl, rfl, rfl⟩, rfl⟩, ⟨rfl, rfl⟩, rfl, rfl⟩
  case host => exact ⟨pend_pendingSet s n, rfl⟩

end Sys2Proof.Machine
end

/-! SUPPORT. The opcode map as one form: which fields an opcode reads, and that encoding and decoding are inverse
(30_encoding.md R90 to R97). -/

namespace Sys2Proof

open Sys2Proof.Certificates

/-! ## Decoding as one operand form

Every operand form of Decode.lean reads some of rs, rt and rd, in this order, and then builds the instruction. -/

/-- The register a field names, where the opcode uses the field; an unused field is not looked at. -/
def Fields.regIf (f : Fields) (used : Bool) (field : Byte) : Except Reject Reg :=
  if used then f.reg field else .ok 0

/-- The used ones of rs, rt and rd, then the instruction of their registers. -/
def Fields.withRegs (f : Fields) (rs rt rd : Bool) (k : Reg → Reg → Reg → Instr) : Except Reject Instr := do
  let a ← f.regIf rs f.rs
  let b ← f.regIf rt f.rt
  let c ← f.regIf rd f.rd
  return k a b c

theorem reg_of_lt (f : Fields) {b : Byte} (h : b.toNat < 32) : f.reg b = .ok ⟨b.toNat, h⟩ := dif_pos h

theorem regIf_ok (f : Fields) {used : Bool} {b : Byte} (h : used = true → b.toNat < 32) :
    ∃ r, f.regIf used b = .ok r := by
  cases used with
  | false => exact ⟨0, rfl⟩
  | true => exact ⟨_, reg_of_lt f (h rfl)⟩

theorem regIf_error (f : Fields) {used : Bool} {b : Byte} (h : ¬ (used = true → b.toNat < 32)) :
    32 ≤ b.toNat ∧ f.regIf used b = .error (.registerField f.opcode b) := by
  cases used with
  | false => simp at h
  | true =>
    have hb : 32 ≤ b.toNat := by simpa using h
    exact ⟨hb, reg_eq_error f b hb⟩

section
variable {f : Fields} {rs rt rd : Bool} {k : Reg → Reg → Reg → Instr}

/-- With every used field below 32 the form gives its instruction (30_encoding.md R93). -/
theorem withRegs_ok (hrs : rs = true → f.rs.toNat < 32) (hrt : rt = true → f.rt.toNat < 32)
    (hrd : rd = true → f.rd.toNat < 32) : ∃ a b c, f.withRegs rs rt rd k = .ok (k a b c) := by
  obtain ⟨a, ha⟩ := regIf_ok f hrs
  obtain ⟨b, hb⟩ := regIf_ok f hrt
  obtain ⟨c, hc⟩ := regIf_ok f hrd
  exact ⟨a, b, c, by rw [Fields.withRegs, ha, hb, hc]; rfl⟩

/-- The first used field that holds 32 or more is refused by its value (30_encoding.md R93, D4). -/
theorem withRegs_error (h : ¬ ((rs = true → f.rs.toNat < 32) ∧ (rt = true → f.rt.toNat < 32) ∧
    (rd = true → f.rd.toNat < 32))) :
    ∃ b : Byte, 32 ≤ b.toNat ∧ f.withRegs rs rt rd k = .error (.registerField f.opcode b) := by
  by_cases hrs : rs = true → f.rs.toNat < 32
  · obtain ⟨a, ha⟩ := regIf_ok f hrs
    by_cases hrt : rt = true → f.rt.toNat < 32
    · obtain ⟨b, hb⟩ := regIf_ok f hrt
      obtain ⟨hle, hc⟩ := regIf_error f fun hrd => h ⟨hrs, hrt, hrd⟩
      exact ⟨f.rd, hle, by rw [Fields.withRegs, ha, hb, hc]; rfl⟩
    · obtain ⟨hle, hb⟩ := regIf_error f hrt
      exact ⟨f.rt, hle, by rw [Fields.withRegs, ha, hb]; rfl⟩
  · obtain ⟨hle, ha⟩ := regIf_error f hrs
    exact ⟨f.rs, hle, by rw [Fields.withRegs, ha]; rfl⟩

end

/-! Each operand form reads the fields its name says (30_encoding.md R96). -/

section
variable (f : Fields)

theorem ok_eq_withRegs (i : Instr) : .ok i = f.withRegs false false false fun _ _ _ => i := rfl
theorem rdRsRt_eq_withRegs (k) : f.rdRsRt k = f.withRegs true true true fun rs rt rd => k rd rs rt := rfl
theorem rtRsImm_eq_withRegs (k) : f.rtRsImm k = f.withRegs true true false fun rs rt _ => k rt rs f.imm := rfl
theorem rtImm_eq_withRegs (k) : f.rtImm k = f.withRegs false true false fun _ rt _ => k rt f.imm := rfl
theorem rdRtImm_eq_withRegs (k) : f.rdRtImm k = f.withRegs false true true fun _ rt rd => k rd rt f.imm := rfl
theorem rdRtRs_eq_withRegs (k) : f.rdRtRs k = f.withRegs true true true fun rs rt rd => k rd rt rs := rfl
theorem rtOffRs_eq_withRegs (k) : f.rtOffRs k = f.withRegs true true false fun rs rt _ => k rt f.imm rs := rfl
theorem rsRtOff_eq_withRegs (k) : f.rsRtOff k = f.withRegs true true false fun rs rt _ => k rs rt f.imm := rfl
theorem rsOff_eq_withRegs (k) : f.rsOff k = f.withRegs true false false fun rs _ _ => k rs f.imm := rfl
theorem rsOnly_eq_withRegs (k) : f.rsOnly k = f.withRegs true false false fun rs _ _ => k rs := rfl
theorem rdRs_eq_withRegs (k) : f.rdRs k = f.withRegs true false true fun rs _ rd => k rd rs := rfl
theorem rdOnly_eq_withRegs (k) : f.rdOnly k = f.withRegs false false true fun _ _ rd => k rd := rfl
theorem rdRt_eq_withRegs (k) : f.rdRt k = f.withRegs false true true fun _ rt rd => k rd rt := rfl

end

/-- What the opcode map says of an opcode that is not reserved (30_encoding.md R96): the fields that its row uses are read,
and the instruction built encodes with this opcode. -/
def Assigned (f : Fields) (r : Except Reject Instr) : Prop :=
  f.opcode.toNat ∉ reservedOpcodes ∧ ∃ k : Reg → Reg → Reg → Instr,
    r = f.withRegs (f.opcode.toNat ∈ usesRs) (f.opcode.toNat ∈ usesRt) (f.opcode.toNat ∈ usesRd) k ∧
      ∀ a b c, (encodeFields (k a b c)).opcode = f.opcode

/-- A row of the opcode map, its opcode given as a number. -/
theorem assigned_of_row {f : Fields} {n : Nat} {rs rt rd : Bool} {k : Reg → Reg → Reg → Instr} (h : f.opcode.toNat = n)
    (hn : n ∉ reservedOpcodes) (hrs : decide (n ∈ usesRs) = rs) (hrt : decide (n ∈ usesRt) = rt)
    (hrd : decide (n ∈ usesRd) = rd) (hk : ∀ a b c, (encodeFields (k a b c)).opcode.toNat = n) :
    Assigned f (f.withRegs rs rt rd k) := by
  subst h hrs hrt hrd
  exact ⟨hn, k, rfl, fun a b c => BitVec.eq_of_toNat_eq (hk a b c)⟩

/-- An opcode whose value no row of the map lists is reserved (30_encoding.md R97). -/
theorem decodeFields_of_reserved {f : Fields} (h : f.opcode.toNat ∈ reservedOpcodes) :
    decodeFields f = .error (.reservedOpcode f.opcode) := by
  unfold decodeFields
  split
  case h_63 => rfl
  all_goals next hn => exact absurd (hn ▸ h) (by decide)

/-- The opcodes of the map, as the ranges of 30_encoding.md R96. -/
def assignedOpcodes : List Nat :=
  List.range' 0x00 7 ++ List.range' 0x10 8 ++ List.range' 0x20 6 ++ List.range' 0x30 4 ++ List.range' 0x40 7 ++
    List.range' 0x50 5 ++ List.range' 0x58 3 ++ List.range' 0x60 6 ++ List.range' 0x70 4 ++ List.range' 0xF0 10 ++
    [0xFB, 0xFC]

theorem mem_assignedOpcodes {n : Nat} (h : n < 256) (hn : n ∉ reservedOpcodes) : n ∈ assignedOpcodes := by
  simp only [reservedOpcodes, assignedOpcodes, List.mem_append, List.mem_range'_1, List.mem_cons, List.not_mem_nil,
    or_false] at hn ⊢
  omega

theorem decodeFields_assigned {f : Fields} (h : f.opcode.toNat ∉ reservedOpcodes) : Assigned f (decodeFields f) := by
  unfold decodeFields
  split
  case h_63 =>
    have hmem := mem_assignedOpcodes f.opcode.isLt h
    simp only [assignedOpcodes, List.mem_append, List.mem_range'_1, List.mem_cons, List.not_mem_nil, or_false] at hmem
    grind
  all_goals
    next hn =>
    simp only [ok_eq_withRegs f, rdRsRt_eq_withRegs, rtRsImm_eq_withRegs, rtImm_eq_withRegs, rdRtImm_eq_withRegs,
      rdRtRs_eq_withRegs, rtOffRs_eq_withRegs, rsRtOff_eq_withRegs, rsOff_eq_withRegs, rsOnly_eq_withRegs,
      rdRs_eq_withRegs, rdOnly_eq_withRegs, rdRt_eq_withRegs]
    exact assigned_of_row hn (by decide) rfl rfl rfl fun _ _ _ => rfl

/-- An opcode that is not reserved decodes where every used field names a register, to an instruction of this opcode; else
a used field of 32 or more is refused (30_encoding.md R93). -/
theorem decodeFields_of_assigned {f : Fields} (h : f.opcode.toNat ∉ reservedOpcodes) :
    (UsedFieldsNameRegisters f ∧ ∃ i, decodeFields f = .ok i ∧ (encodeFields i).opcode = f.opcode) ∨
      (¬ UsedFieldsNameRegisters f ∧
        ∃ b : Byte, 32 ≤ b.toNat ∧ decodeFields f = .error (.registerField f.opcode b)) := by
  obtain ⟨-, k, e, hop⟩ := decodeFields_assigned h
  rw [e]
  by_cases hf : UsedFieldsNameRegisters f
  · obtain ⟨hrs, hrt, hrd⟩ := hf
    obtain ⟨a, b, c, hk⟩ := withRegs_ok (k := k) (fun u => hrs (of_decide_eq_true u))
      (fun u => hrt (of_decide_eq_true u)) (fun u => hrd (of_decide_eq_true u))
    exact .inl ⟨⟨hrs, hrt, hrd⟩, k a b c, hk, hop a b c⟩
  · refine .inr ⟨hf, withRegs_error fun ⟨hrs, hrt, hrd⟩ => hf ⟨?_, ?_, ?_⟩⟩
    exacts [fun u => hrs (decide_eq_true u), fun u => hrt (decide_eq_true u), fun u => hrd (decide_eq_true u)]

theorem decodeFields_eq_reserved_iff {f : Fields} :
    (∃ op, decodeFields f = .error (.reservedOpcode op)) ↔ f.opcode.toNat ∈ reservedOpcodes := by
  refine ⟨fun ⟨op, e⟩ => by_contra fun h => ?_, fun h => ⟨_, decodeFields_of_reserved h⟩⟩
  rcases decodeFields_of_assigned h with ⟨-, i, hi, -⟩ | ⟨-, b, -, hb⟩
  · simp [hi] at e
  · simp [hb] at e

/-- An instruction is decoded from its own opcode. -/
theorem opcode_of_decodeFields {f : Fields} {i : Instr} (h : decodeFields f = .ok i) :
    (encodeFields i).opcode = f.opcode := by
  have hr : f.opcode.toNat ∉ reservedOpcodes := fun hr => by simp [decodeFields_of_reserved hr] at h
  rcases decodeFields_of_assigned hr with ⟨-, j, hj, hop⟩ | ⟨-, b, -, hb⟩
  · cases hj.symm.trans h
    exact hop
  · simp [hb] at h

/-! ## Unused fields (30_encoding.md R92, D5) -/

/-- The fields with 0 in every field that the opcode does not use. -/
def Fields.usedOnly (f : Fields) : Fields where
  opcode := f.opcode
  rs := if f.opcode.toNat ∈ usesRs then f.rs else 0
  rt := if f.opcode.toNat ∈ usesRt then f.rt else 0
  rd := if f.opcode.toNat ∈ usesRd then f.rd else 0
  imm := if f.opcode.toNat ∈ usesImm then f.imm else 0

theorem decodeFields_usedOnly (f : Fields) : decodeFields f.usedOnly = decodeFields f := by
  obtain ⟨op, rs, rt, rd, imm⟩ := f
  unfold decodeFields Fields.usedOnly
  dsimp only
  split
  all_goals next h => simp only [h] <;> rfl

/-- Settles O4: both words decode as the word with 0 in every unused field does, and that is the same word. -/
theorem unusedFieldsAreIgnored : Obligations.UnusedFieldsAreIgnored := by
  intro f g hop hrs hrt hrd himm
  have same : f.usedOnly = g.usedOnly := by
    simp only [Fields.usedOnly, ← hop, Fields.mk.injEq, true_and]
    exact ⟨ite_congr rfl hrs fun _ => rfl, ite_congr rfl hrt fun _ => rfl, ite_congr rfl hrd fun _ => rfl,
      ite_congr rfl himm fun _ => rfl⟩
  rw [← decodeFields_usedOnly f, same, decodeFields_usedOnly]

/-! ## Encoding and decoding (30_encoding.md R90 to R96) -/

/-- Settles O1: each word is decoded as it stands. -/
theorem decodeReadsWrittenOutWords : Obligations.DecodeReadsWrittenOutWords := by
  unfold Obligations.DecodeReadsWrittenOutWords
  decide

/-- A field that holds a register's number is read as that register. -/
theorem reg_toByte_bind (f : Fields) (r : Reg) (k : Reg → Except Reject Instr) : (f.reg r.toByte >>= k) = k r := by
  rw [reg_toByte]
  rfl

/-- The opcode map reads back what the encoder wrote: the opcode selects the row, whose one, two or three register fields
name the instruction's registers (30_encoding.md R93, R96). -/
theorem decodeFields_encodeFields (i : Instr) : decodeFields (encodeFields i) = .ok i := by
  cases i
  case nop | j | jal | syscall | brk | ei | di | iret | raise | enablePaging | disablePaging | enterUser => rfl
  case lui | blez | bgtz | bltz | bgez | jr | getpc | getmode => exact reg_toByte_bind _ _ _
  case addi | addiu | andi | ori | xori | slti | sltiu | sll | srl | sra | lw | lh | lhu | lb | lbu | sw | sh | sb | beq |
      bne | jalr | setPtbr =>
    exact (reg_toByte_bind _ _ _).trans (reg_toByte_bind _ _ _)
  all_goals exact (reg_toByte_bind _ _ _).trans ((reg_toByte_bind _ _ _).trans (reg_toByte_bind _ _ _))

/-- Settles O2: the eight bytes are those of the instruction's fields, which decode to it. -/
theorem decodeInvertsEncode : Obligations.DecodeInvertsEncode := fun i =>
  ⟨rfl, (decode_toBytes _).trans (decodeFields_encodeFields i)⟩

/-- Fields that are an instruction's in every used field hold that instruction. -/
theorem encodes_of_usedOnly {op rs rt rd : Byte} {imm : Word} {i : Instr}
    (h : Fields.usedOnly ⟨op, rs, rt, rd, imm⟩ = (encodeFields i).usedOnly) : Safety.Encodes op rs rt rd imm i := by
  rw [Safety.Encodes, decode_toBytes, ← decodeFields_usedOnly, h, decodeFields_usedOnly, decodeFields_encodeFields]

end Sys2Proof

/-! SUPPORT. The cycle without and with a dispatch, and what it does with bytes that hold no instruction (60_exceptions.md
R231, R239). -/

namespace Sys2Proof.Machine

open Sys2Proof.Safety Sys2Proof.Certificates

variable {s t : State} {n : IntNum} {f : Fields}

/-! ## The cycle (60_exceptions.md R231) -/

theorem step_of_running (hr : s.running = true) : step s = s.cycle := if_pos hr

/-- Where no interrupt is due, the cycle is the fetch and what follows it. -/
theorem step_of_notDue (hr : s.running = true) (hn : NotDue s) : step s = s.fetchExecute := by
  simp [step_of_running hr, State.cycle, nests_of_notDue hn, interruptCheck_of_notDue hn, hr]

/-- Where interrupt n is due and does not nest, the cycle dispatches it and, unless that stops the machine, fetches. -/
theorem step_of_due (hr : s.running = true) (ho : s.outstanding = false) (hi : s.intEnabled = true)
    (hn : s.leastPending = some n) :
    step s = if (s.dispatch n).running then (s.dispatch n).fetchExecute else .next (s.dispatch n) := by
  simp [step_of_running hr, State.cycle, State.nests, ho, interruptCheck_of_leastPending hi hn]

theorem executeBytes_of_decode {bs : List Byte} {i : Instr} (h : decode bs = .ok i) : s.executeBytes bs = exec i s := by
  simp [State.executeBytes, h]

/-- Settles O7: a step of a stopped machine is the fault by definition. -/
theorem stoppedMachineTakesNoStep : Obligations.StoppedMachineTakesNoStep := by
  intro s hr
  have fault : step s = .fault (.stopped s.stopReason) := if_neg (by simp [hr])
  exact ⟨fault, fun t h => by simp [fault] at h⟩

/-- A dispatch that leaves the machine running has disabled interrupts. -/
theorem dispatch_notDue (hr : (s.dispatch n).running = true) : NotDue (s.dispatch n) := by
  rcases dispatch_cases (s := s) n with ⟨-, ⟨pc, e⟩ | ⟨reason, e⟩⟩ | ⟨-, e⟩ <;> rw [e] at hr ⊢
  · exact .inl (by simp)
  · exact .inl (by simp)
  · simp at hr

/-- Settles O6: without a dispatch the cycle is the fetch's instruction; with one that goes on, interrupts are disabled
after it, so that a step from there is the rest of the same cycle. -/
theorem stepRunsDecodedInstruction : Obligations.StepRunsDecodedInstruction := by
  refine ⟨fun s bs i hr hn hf hd => (step_of_fetch hr hn hf).trans (executeBytes_of_decode hd), ?_⟩
  intro s n hr ho hi hn hlow
  have due := step_of_due hr ho hi (leastPending_eq_some.2 ⟨hn, hlow⟩)
  refine ⟨fun hd => ?goes_on, fun hd => by simpa [hd] using due⟩
  have same : step s = step (s.dispatch n) := by rw [due, if_pos hd, step_of_notDue hd (dispatch_notDue hd)]
  exact ⟨same, fun bs i hf hdec => by rw [same, step_of_fetch hd (dispatch_notDue hd) hf, executeBytes_of_decode hdec]⟩

/-! ## The fetch (20_memory.md R64) -/

theorem fetch_of_misaligned (h : s.pc.toNat % 8 ≠ 0) : s.fetch = .stop .pcMisaligned := if_pos h

theorem fetch_of_error (h : s.pc.toNat % 8 = 0) (ht : s.translate s.pc .exec = .error n) : s.fetch = .fault n := by
  simp [State.fetch, h, ht]

theorem fetch_of_outOfBounds {p : Word} (h : s.pc.toNat % 8 = 0) (ht : s.translate s.pc .exec = .ok p)
    (hp : s.memSize.toNat < p.toNat + 8) : s.fetch = .stop .pcOutOfBounds := by
  simp [State.fetch, h, ht, State.inBounds, hp]

theorem readBytes_eq_map (m : Memory) (a k : Nat) : m.readBytes a k = (List.range k).map fun j => m.read (a + j) := by
  refine List.ext_getElem? fun j => ?_
  rw [getElem?_readBytes, List.getElem?_map]
  by_cases h : j < k <;> simp [h]

/-- A stop at the fetch changes nothing but that the machine is stopped. -/
theorem step_of_fetch_stop {reason : StopReason} (hr : s.running = true) (hn : NotDue s) (hf : s.fetch = .stop reason) :
    ∃ t, step s = .next t ∧ Stopped t reason ∧ t.pc = s.pc ∧ t.pending = s.pending ∧ SameRegs s t ∧ SameMem s t := by
  refine ⟨s.stop reason, ?_, ⟨rfl, rfl⟩, rfl, rfl, fun _ => rfl, rfl, fun _ => rfl⟩
  simp [step_of_notDue hr hn, State.fetchExecute, hf]

/-- Settles O8: the three checks of the fetch, in their order, and what the cycle does with each outcome. -/
theorem fetchOutcomes : Obligations.FetchOutcomes := by
  intro s hr hn
  refine ⟨fun hpc => step_of_fetch_stop hr hn (fetch_of_misaligned hpc),
    fun hpc => ⟨fun k ht => ?fault, fun p ht => ⟨?out, ?bytes⟩⟩⟩
  case fault =>
    refine ⟨s.raiseFault k, ?_, raiseFault_faultRaised s k⟩
    simp [step_of_notDue hr hn, State.fetchExecute, fetch_of_error hpc ht]
  case out => exact fun hp => step_of_fetch_stop hr hn (fetch_of_outOfBounds hpc ht hp)
  case bytes => exact fun hp => fetch_bytes.2 ⟨hpc, p, ht, hp, (readBytes_eq_map _ _ _).symm⟩

/-! ## Bytes that hold no instruction (60_exceptions.md R231, R239) -/

theorem step_of_reject {e : Reject} (hr : s.running = true) (hn : NotDue s) (hf : s.fetch = .bytes f.toBytes)
    (he : decodeFields f = .error e) : step s = s.onReject e := by
  rw [step_of_fetch hr hn hf, State.executeBytes, decode_toBytes, he]

theorem reservedOpcodes_nodup : reservedOpcodes.Nodup := by
  have sorted : reservedOpcodes.IsChain (· < ·) := by decide +kernel
  exact (List.isChain_iff_pairwise.1 sorted).imp Nat.ne_of_lt

/-- Settles O3: the ranges are strictly rising; the opcode map rejects as reserved exactly their members, and the cycle
raises interrupt 1 for them. -/
theorem reservedOpcodesAreIllegal : Obligations.ReservedOpcodesAreIllegal := by
  refine ⟨rfl, reservedOpcodes_nodup, fun f => decodeFields_eq_reserved_iff, fun s f hr hn hf hop => ?_⟩
  exact ⟨s.raiseFault 1, step_of_reject hr hn hf (decodeFields_of_reserved hop), raiseFault_faultRaised s 1⟩

/-- Of the privileged opcodes only SET_PTBR uses a register field (49_system.md). -/
theorem usedFieldsNameRegisters_of_privilegedOpcode (hp : privilegedOpcode f.opcode = true) (h9 : f.opcode ≠ 0xF9#8) :
    UsedFieldsNameRegisters f := by
  have uses_none : f.opcode.toNat ∉ usesRs ∧ f.opcode.toNat ∉ usesRt ∧ f.opcode.toNat ∉ usesRd := by
    simp only [privilegedOpcode, List.mem_cons, List.not_mem_nil, or_false, decide_eq_true_eq, h9, false_or] at hp
    rcases hp with h | h | h | h | h | h
    all_goals rw [h]; decide
  obtain ⟨hrs, hrt, hrd⟩ := uses_none
  exact ⟨fun h => absurd h hrs, fun h => absurd h hrt, fun h => absurd h hrd⟩

/-- Settles O5: a used field of 32 or more is what the decoder reports; the cycle refuses it but for a privileged opcode in
user mode, and SET_PTBR alone of these has a register field. -/
theorem highRegisterFieldsAreRefused : Obligations.HighRegisterFieldsAreRefused := by
  intro f hop
  rcases decodeFields_of_assigned hop with ⟨hnamed, i, hi, -⟩ | ⟨hnot, b, hb, he⟩
  · exact ⟨fun _ => ⟨i, hi⟩, fun h => absurd hnamed h⟩
  refine ⟨fun h => absurd h hnot, fun _ s hr hn hf => ?_⟩
  have reject := step_of_reject hr hn hf he
  refine ⟨fun hk => ⟨b, hb, ?kernel⟩, fun hk h9 => ⟨s.raiseFault 7, ?setPtbr, raiseFault_faultRaised s 7⟩,
    fun hk h9 => ⟨b, hb, ?user⟩⟩
  case kernel => rw [reject]; simp [State.onReject, hk]
  case setPtbr => rw [reject, State.onReject, h9, hk]; rfl
  case user =>
    have hp : privilegedOpcode f.opcode = false :=
      Bool.eq_false_iff.2 fun hp => hnot (usedFieldsNameRegisters_of_privilegedOpcode hp h9)
    rw [reject]; simp [State.onReject, hp]

end Sys2Proof.Machine

/-! SUPPORT. The invariant: each operation on the state keeps it, hence every instruction, every step and every action of the
host does (10_state.md R22; 20_memory.md R57; 60_exceptions.md R245). -/

namespace Sys2Proof.Machine

open Sys2Proof.Safety

variable {s t : State}

/-! ## The operations keep the invariant -/

/-- The invariant speaks of memory, its size, R0's slot and the stop alone. -/
theorem inv_congr (h : MachineInv s) (hmem : t.mem = s.mem) (hsize : t.memSize = s.memSize)
    (hzero : t.regs[0] = s.regs[0]) (hrun : SameRunning s t) : MachineInv t := by
  obtain ⟨running, reason⟩ := hrun
  rwa [MachineInv, hmem, hsize, hzero, running, reason]

theorem stop_inv (h : MachineInv s) (reason : StopReason) : MachineInv (s.stop reason) := by
  obtain ⟨hwf, hbound, hzero, -⟩ := h
  exact ⟨hwf, hbound, hzero, rfl⟩

theorem jump_inv (h : MachineInv s) (target : Word) : MachineInv (s.jump target) := h

theorem pend_inv (h : MachineInv s) (n : IntNum) : MachineInv (s.pend n) := h

theorem setReg_inv (h : MachineInv s) (r : Reg) (v : Word) : MachineInv (s.setReg r v) :=
  inv_congr h (by simp) (by simp) (setReg_regs_zero s r v) ⟨by simp, by simp⟩

theorem deliverable_inv (h : MachineInv s) (n : IntNum) : MachineInv (s.deliverable n) := by
  unfold State.deliverable
  split
  · exact h
  · exact stop_inv h _

theorem raiseFault_inv (h : MachineInv s) (n : IntNum) : MachineInv (s.raiseFault n) := deliverable_inv (pend_inv h n) n

theorem raiseTrap_inv (h : MachineInv s) (n : IntNum) : MachineInv (s.raiseTrap n) :=
  deliverable_inv (jump_inv (pend_inv h n) _) n

/-- Bytes stored inside memory leave it canonical and inside its size. -/
theorem writeBytes_inv (h : MachineInv s) {a : Nat} {bs : List Byte} (hb : a + bs.length ≤ s.memSize.toNat) :
    MachineInv { s with mem := s.mem.writeBytes a bs } := by
  obtain ⟨hwf, hbound, hzero, hrun⟩ := h
  exact ⟨wf_writeBytes hwf a bs, bound_writeBytes hbound hb, hzero, hrun⟩

theorem physWrite_inv (h : MachineInv s) {pa n : Nat} (hb : pa + n ≤ s.memSize.toNat) (v : Word) :
    MachineInv (s.physWrite pa n v) := writeBytes_inv h (by rwa [length_leBytes])

/-- The frame is stored where it was checked to lie in memory (60_exceptions.md R250). -/
theorem dispatchSave_inv (h : MachineInv s) (hf : s.frameAddress.toNat + 128 ≤ s.memSize.toNat) (n : IntNum) :
    MachineInv (s.dispatchSave n) := by
  have saved := writeBytes_inv h (bs := s.frameBytes) (by rwa [length_frameBytes])
  exact inv_congr saved (by simp) (by simp) (by simp only [State.dispatchSave, setReg_regs_zero]) ⟨by simp, by simp⟩

theorem dispatchEnter_inv (h : MachineInv s) : MachineInv s.dispatchEnter := h

theorem dispatch_inv (h : MachineInv s) (n : IntNum) : MachineInv (s.dispatch n) := by
  rcases dispatch_cases (s := s) n with ⟨hf, ⟨pc, e⟩ | ⟨reason, e⟩⟩ | ⟨-, e⟩ <;> rw [e]
  · exact jump_inv (dispatchSave_inv (dispatchEnter_inv h) hf n) pc
  · exact stop_inv (dispatchSave_inv (dispatchEnter_inv h) hf n) reason
  · exact stop_inv (dispatchEnter_inv h) _

theorem interruptCheck_inv (h : MachineInv s) : MachineInv s.interruptCheck := by
  rcases interruptCheck_cases (s := s) with e | ⟨-, n, -, e⟩ <;> rw [e]
  · exact h
  · exact dispatch_inv h n

/-- IRET loads the registers from the frame, R0 with 0 whatever the frame holds (49_system.md R215). -/
theorem returnFromInterrupt_inv (h : MachineInv s) : MachineInv s.returnFromInterrupt := by
  rcases returnFromInterrupt_cases (s := s) with ⟨-, e⟩ | ⟨-, e⟩ <;> rw [e]
  · obtain ⟨hwf, hbound, -, hrun⟩ := h
    exact ⟨hwf, hbound, getElem_frameRegs (s := s) 0, hrun⟩
  · exact stop_inv h _

/-! ## Instructions and steps keep the invariant -/

theorem Effect.inv (e : Effect s t) (h : MachineInv s) : MachineInv t := by
  cases e with
  | write rd v => exact jump_inv (setReg_inv h rd v) _
  | jump target => exact jump_inv h target
  | link rd target => exact jump_inv (setReg_inv h rd _) target
  | store va n pa v hd _ => exact jump_inv (physWrite_inv h (dataAddress_bound hd) v) _
  | fault k => exact raiseFault_inv h k
  | trap k => exact raiseTrap_inv h k
  | pend k => exact jump_inv (pend_inv h k) _
  | interrupts | paging | table | enterUser => exact inv_congr h rfl rfl rfl ⟨rfl, rfl⟩
  | iret => exact returnFromInterrupt_inv h

/-- Settles O53: the check, a stop, a raise and an instruction's effect each keep the invariant, and a step is made of
these. -/
theorem stepKeepsTheInvariant : Obligations.StepKeepsTheInvariant := by
  intro s t h hstep
  have hcheck := interruptCheck_inv h
  obtain ⟨-, -, ⟨-, rfl⟩ | ⟨-, ⟨reason, -, rfl⟩ | ⟨k, rfl⟩ | ⟨bs, i, -, -, hexec⟩⟩⟩ := step_cases hstep
  · exact hcheck
  · exact stop_inv hcheck reason
  · exact raiseFault_inv hcheck k
  · exact (exec_effect hexec).inv hcheck

/-! ## Reset (10_state.md R40) -/

/-- Settles O51: every field of the reset state is the one stated; no byte is listed. -/
theorem resetState : Obligations.ResetState := by
  refine ⟨fun r => ?_, rfl, rfl, fun _ => rfl, rfl, rfl, rfl, rfl, rfl, rfl, fun n => ?_, rfl, rfl, rfl, rfl⟩
  · by_cases h : r = 0 <;> simp [State.getReg, State.reset, h]
  · simp [State.reset]

/-- Settles O52: memory is empty at reset, R0 holds 0, and the machine runs. -/
theorem resetMeetsTheInvariant : Obligations.ResetMeetsTheInvariant :=
  ⟨⟨.nil, fun _ h => absurd h List.not_mem_nil⟩, fun _ h => absurd h List.not_mem_nil, rfl, rfl⟩

/-! ## The host (70_reset_and_hazards.md R286) -/

theorem truncate_inv (h : MachineInv s) (size : Word) :
    MachineInv { s with memSize := size, mem := s.mem.truncate size.toNat } := by
  obtain ⟨hwf, -, hzero, hrun⟩ := h
  exact ⟨wf_truncate hwf _, bound_truncate _ _, hzero, hrun⟩

theorem FieldWrite.apply_inv (h : MachineInv s) (w : FieldWrite) : MachineInv (w.apply s) := by
  cases w with
  | reg r v => exact setReg_inv h r v
  | memSize size => exact truncate_inv h size
  | running b =>
    obtain ⟨hwf, hbound, hzero, hrun⟩ := h
    cases b with
    | true => exact ⟨hwf, hbound, hzero, rfl⟩
    | false =>
      change MachineInv (if s.running then s.stop .byHost else s)
      split
      · exact ⟨hwf, hbound, hzero, rfl⟩
      · exact ⟨hwf, hbound, hzero, hrun⟩
  | _ => exact h

section
variable {n : IntNum} {handler : Word} {offset a : Nat} {image : List Byte} {v : Byte}

theorem setHandler_of_fits (h : 8 * n.val + 4 ≤ s.memSize.toNat) :
    (EnvAction.setHandler n handler).apply s = s.physWrite (8 * n.val) 4 handler := if_pos (inBounds_iff.2 h)

theorem setHandler_of_not_fits (h : s.memSize.toNat < 8 * n.val + 4) :
    (EnvAction.setHandler n handler).apply s = s := if_neg fun hb => absurd (inBounds_iff.1 hb) (Nat.not_le.2 h)

theorem loadImage_of_fits (h : offset + image.length ≤ s.memSize.toNat) :
    (EnvAction.loadImage offset image).apply s = { s with mem := s.mem.writeBytes offset image } :=
  if_pos (inBounds_iff.2 h)

theorem loadImage_of_not_fits (h : s.memSize.toNat < offset + image.length) :
    (EnvAction.loadImage offset image).apply s = s := if_neg fun hb => absurd (inBounds_iff.1 hb) (Nat.not_le.2 h)

theorem writeByte_of_fits (h : a < s.memSize.toNat) :
    (EnvAction.writeByte a v).apply s = { s with mem := s.mem.write a v } := if_pos (inBounds_iff.2 h)

theorem writeByte_of_not_fits (h : s.memSize.toNat ≤ a) : (EnvAction.writeByte a v).apply s = s :=
  if_neg fun hb => absurd (inBounds_iff.1 hb) (by omega)

/-- The word stored is the word read back (20_memory.md R51, R59). -/
theorem physRead_physWrite_four (pa : Nat) (w : Word) : (s.physWrite pa 4 w).physRead pa 4 = w := by
  simp only [physRead_four, read_physWrite]
  simpa [immOfBytes] using immOfBytes_extract w

/-- The bytes of an image, where it covers the address. -/
theorem read_writeBytes_getD (m : Memory) (offset a : Nat) (image : List Byte) :
    (m.writeBytes offset image).read a = if offset ≤ a then (image[a - offset]?).getD (m.read a) else m.read a := by
  rw [read_writeBytes]
  by_cases h : offset ≤ a
  · by_cases hl : a - offset < image.length <;> simp [h, hl]
  · simp [h]

theorem sameButBytes_setHandler : Certificates.SameButBytes s ((EnvAction.setHandler n handler).apply s) := by
  rcases Nat.lt_or_ge s.memSize.toNat (8 * n.val + 4) with h | h
  · rw [setHandler_of_not_fits h]; rfl
  · rw [setHandler_of_fits h]; rfl

theorem sameButBytes_loadImage : Certificates.SameButBytes s ((EnvAction.loadImage offset image).apply s) := by
  rcases Nat.lt_or_ge s.memSize.toNat (offset + image.length) with h | h
  · rw [loadImage_of_not_fits h]; rfl
  · rw [loadImage_of_fits h]; rfl

theorem sameButBytes_writeByte : Certificates.SameButBytes s ((EnvAction.writeByte a v).apply s) := by
  rcases Nat.lt_or_ge a s.memSize.toNat with h | h
  · rw [writeByte_of_fits h]; rfl
  · rw [writeByte_of_not_fits h]; rfl

end

theorem EnvAction.apply_inv (h : MachineInv s) (act : EnvAction) : MachineInv (act.apply s) := by
  cases act with
  | allocate size =>
    obtain ⟨-, -, hzero, hrun⟩ := h
    exact ⟨⟨.nil, fun _ h => absurd h List.not_mem_nil⟩, fun _ h => absurd h List.not_mem_nil, hzero, hrun⟩
  | loadImage offset image =>
    rcases Nat.lt_or_ge s.memSize.toNat (offset + image.length) with hb | hb
    · rwa [loadImage_of_not_fits hb]
    · rw [loadImage_of_fits hb]
      exact writeBytes_inv h hb
  | setHandler n handler =>
    rcases Nat.lt_or_ge s.memSize.toNat (8 * n.val + 4) with hb | hb
    · rwa [setHandler_of_not_fits hb]
    · rw [setHandler_of_fits hb]
      exact physWrite_inv h hb handler
  | writeField w => exact FieldWrite.apply_inv h w
  | writeByte a v =>
    rcases Nat.lt_or_ge a s.memSize.toNat with hb | hb
    · rw [writeByte_of_fits hb]
      exact writeBytes_inv h (bs := [v]) hb
    · rwa [writeByte_of_not_fits hb]
  | setEntry | enableInterrupts | raiseInterrupt => exact h

theorem foldl_apply_inv (acts : List EnvAction) (h : MachineInv s) :
    MachineInv (acts.foldl (fun t act => act.apply t) s) := by
  induction acts generalizing s with
  | nil => exact h
  | cons act acts ih => exact ih (EnvAction.apply_inv h act)

/-- Settles O58: each action keeps the invariant, so the actions before a cycle do, and the cycle is a step. -/
theorem hostActionsKeepTheInvariant : Obligations.HostActionsKeepTheInvariant := by
  refine ⟨fun act s h => EnvAction.apply_inv h act, fun acts => ?_⟩
  induction acts with
  | nil =>
    intro s t h hrun
    cases hrun
    exact h
  | cons acts rest ih =>
    intro s t h hrun
    unfold runWithHost at hrun
    split at hrun
    · next u hu => exact ih u t (stepKeepsTheInvariant _ _ (foldl_apply_inv acts h) hu) hrun
    · next hno => exact absurd hrun (hno t)

/-- Settles O56: an action writes the bytes or the field it names, and one that does not fit memory does nothing. -/
theorem hostActions : Obligations.HostActions := by
  intro s n handler pc size offset image a v
  refine ⟨fun h => ⟨?handler, ?readsBack⟩, setHandler_of_not_fits, sameButBytes_setHandler, rfl, rfl,
    pend_pendingSet s n, rfl, sameButBytes_loadImage, fun h => ?image, loadImage_of_not_fits, sameButBytes_writeByte,
    fun h b => ?byte, writeByte_of_not_fits, rfl, rfl⟩
  case handler => rw [setHandler_of_fits h]; exact physWrite_bytesWritten s _ 4 handler
  case readsBack => rw [setHandler_of_fits h, ← physRead_four_toNat, physRead_physWrite_four]
  case image => rw [loadImage_of_fits h]; exact read_writeBytes_getD _ _ _ _
  case byte => rw [writeByte_of_fits h]; exact read_write _ _ _ _

/-- Writing to `running` is that field and the stop's label, which stays where the value does not change. -/
theorem apply_running (b : Bool) (s : State) :
    (FieldWrite.running b).apply s =
      { s with running := b, stopReason := if b then none else if s.running then some .byHost else s.stopReason } := by
  cases b with
  | true => rfl
  | false =>
    change (if s.running then s.stop .byHost else s) = _
    cases h : s.running with
    | true => rfl
    | false => exact show s = { s with running := false } by rw [← h]

/-- Settles O57: each write is the update of its field; R0 discards its write, memory is cut to its new size, and the label
of a stop goes with `running`. -/
theorem hostWritesAnyField : Obligations.HostWritesAnyField := by
  intro s r v b n
  refine ⟨fun q => getReg_setReg s q r v, ?reg, rfl, fun a => read_truncate _ _ _, rfl, ?running, fun hb hlabel => ?label,
    rfl, rfl, rfl, rfl, rfl, fun m => getElem_pending_set _ n m b, rfl, rfl, rfl, rfl⟩
  case reg => by_cases h : r = 0 <;> simp [FieldWrite.apply, State.setReg, h]
  case running => rw [apply_running]
  case label =>
    have kept : (if s.running then none else if s.running then some .byHost else s.stopReason) = s.stopReason := by
      cases h : s.running with
      | true => exact (Option.isNone_iff_eq_none.1 (hlabel ▸ h)).symm
      | false => rfl
    rw [apply_running, hb, kept]

end Sys2Proof.Machine

/-! SUPPORT. Taking an interrupt, returning from it, and trapping: the whole effect of each (60_exceptions.md R240 to R255;
49_system.md R210 to R216). -/

namespace Sys2Proof.Machine

open Sys2Proof.Safety

variable {s t v : State} {n : IntNum}

/-! ## Which pending bits a step clears (60_exceptions.md R232, R233) -/

/-- After the interrupt check a step clears no pending bit. -/
theorem step_keeps_pending_of_check (h : step s = .next t) (hn : s.interruptCheck.pending[n] = true) :
    t.pending[n] = true := by
  obtain ⟨-, -, ⟨-, rfl⟩ | ⟨-, ⟨reason, -, rfl⟩ | ⟨k, rfl⟩ | ⟨bs, i, -, -, hexec⟩⟩⟩ := step_cases h
  · exact hn
  · exact hn
  · exact (Effect.fault k).keeps_pending hn
  · exact (exec_effect hexec).keeps_pending hn

/-- A dispatch clears at most its own pending bit. -/
theorem dispatch_keeps_pending {m : IntNum} (hne : n ≠ m) (hn : s.pending[n] = true) :
    (s.dispatch m).pending[n] = true := by
  rcases dispatch_cases (s := s) m with ⟨-, ⟨pc, e⟩ | ⟨reason, e⟩⟩ | ⟨-, e⟩ <;> rw [e]
  · simpa only [jump_pending, dispatchSave_pending, dispatchEnter_pending, getElem_pending_set, if_neg hne] using hn
  · simpa only [stop_pending, dispatchSave_pending, dispatchEnter_pending, getElem_pending_set, if_neg hne] using hn
  · exact hn

/-- Settles O10: the check that changes the state dispatches the least pending interrupt, and that is the only bit a step
can clear. -/
theorem pendingClearsOnlyAtDispatch : Obligations.PendingClearsOnlyAtDispatch := by
  refine ⟨fun s hn => interruptCheck_of_notDue hn, fun s t n h hn hclear => ?_⟩
  have cleared : ¬ s.interruptCheck.pending[n] = true := fun hp => by
    simp [step_keeps_pending_of_check h hp] at hclear
  rcases interruptCheck_cases (s := s) with e | ⟨hi, k, hk, e⟩
  · exact absurd (e.symm ▸ hn) cleared
  · have hnk : n = k := by_contra fun hne => cleared (e.symm ▸ dispatch_keeps_pending hne hn)
    exact ⟨hi, hnk ▸ (leastPending_eq_some.1 hk).2⟩

/-! ## Dispatch (60_exceptions.md R250, R251) -/

/-- The state in which a dispatch of n with its frame in memory reads the handler's word. -/
def State.saved (s : State) (n : IntNum) : State := s.dispatchEnter.dispatchSave n

theorem dispatch_of_frame (h : s.frameAddress.toNat + 128 ≤ s.memSize.toNat) :
    s.dispatch n = (s.saved n).dispatchVector n := if_pos (inBounds_iff.2 h)

theorem dispatch_of_no_frame (h : s.memSize.toNat < s.frameAddress.toNat + 128) :
    s.dispatch n = s.dispatchEnter.stop .frameOutOfBounds := if_neg fun hb => absurd (inBounds_iff.1 hb) (Nat.not_le.2 h)

/-- Reading the handler's word changes nothing but the pc or that the machine is stopped. -/
theorem dispatchVector_frame (u : State) (n : IntNum) :
    SameRegs u (u.dispatchVector n) ∧ (u.dispatchVector n).mem = u.mem ∧ (u.dispatchVector n).memSize = u.memSize ∧
      SamePaging u (u.dispatchVector n) ∧ SameSaved u (u.dispatchVector n) ∧
      (u.dispatchVector n).kernelMode = u.kernelMode ∧ (u.dispatchVector n).intEnabled = u.intEnabled ∧
      (u.dispatchVector n).pending = u.pending := by
  rcases dispatchVector_cases (s := u) n with ⟨pc, e⟩ | ⟨reason, e⟩ <;> rw [e]
  · exact ⟨fun _ => rfl, rfl, rfl, ⟨rfl, rfl, rfl⟩, ⟨⟨rfl, rfl, rfl⟩, rfl⟩, rfl, rfl, rfl⟩
  · exact ⟨fun _ => rfl, rfl, rfl, ⟨rfl, rfl, rfl⟩, ⟨⟨rfl, rfl, rfl⟩, rfl⟩, rfl, rfl, rfl⟩

/-- The number of bytes depends on memory alone. -/
theorem littleEndian_congr {s t : State} (h : t.mem = s.mem) (a k : Nat) : littleEndian t a k = littleEndian s a k := by
  simp [littleEndian, h]

/-- Steps 9 and 10 of dispatch: the word at 8n, read as a number, is the handler's address, 0 for no handler (R234). -/
theorem dispatchVector_outcome (u : State) (n : IntNum) :
    (u.memSize.toNat < 8 * n.val + 4 → Stopped (u.dispatchVector n) .ivtOutOfBounds) ∧
      (8 * n.val + 4 ≤ u.memSize.toNat → littleEndian u (8 * n.val) 4 = 0 →
        Stopped (u.dispatchVector n) (.noHandler n)) ∧
      (8 * n.val + 4 ≤ u.memSize.toNat → littleEndian u (8 * n.val) 4 ≠ 0 →
        (u.dispatchVector n).pc.toNat = littleEndian u (8 * n.val) 4 ∧ SameRunning u (u.dispatchVector n)) := by
  have word : Config.handlerInstalled (u.physRead (8 * n.val) 4) = true ↔ littleEndian u (8 * n.val) 4 ≠ 0 := by
    rw [Config.handlerInstalled, bne_iff_ne, ← physRead_four_toNat, ← BitVec.toNat_ne_iff_ne]; rfl
  have ivt : ivtAddress n = 8 * n.val := rfl
  rw [State.dispatchVector, ivt]
  refine ⟨fun h => ?_, fun h hz => ?_, fun h hz => ?_⟩
  · rw [if_neg fun hb => absurd (inBounds_iff.1 hb) (Nat.not_le.2 h)]
    exact ⟨rfl, rfl⟩
  · rw [if_pos (inBounds_iff.2 h), if_neg fun hw => word.1 hw hz]
    exact ⟨rfl, rfl⟩
  · rw [if_pos (inBounds_iff.2 h), if_pos (word.2 hz)]
    exact ⟨physRead_four_toNat u _, rfl, rfl⟩

theorem saved_mem (s : State) (n : IntNum) :
    (s.saved n).mem = s.mem.writeBytes s.frameAddress.toNat s.frameBytes := dispatchSave_mem s.dispatchEnter n

/-- The frame holds every register's word (60_exceptions.md R251). -/
theorem saved_frame (s : State) (n : IntNum) (r : Reg) {k : Nat} (hk : k < 4) :
    (s.saved n).mem.read (s.frameAddress.toNat + 4 * r.val + k) = (s.getReg r).extractLsb' (8 * k) 8 := by
  rw [saved_mem]
  exact read_writeBytes_frameBytes s s.mem _ r k hk

theorem saved_outside_frame (s : State) (n : IntNum) {a : Nat}
    (ha : a < s.frameAddress.toNat ∨ s.frameAddress.toNat + 128 ≤ a) : (s.saved n).mem.read a = s.mem.read a := by
  rw [saved_mem, read_writeBytes, dif_neg (by rw [length_frameBytes]; omega)]

/-- The control state with which the handler starts (60_exceptions.md R250). -/
theorem saved_control (s : State) (n : IntNum) :
    (s.saved n).kernelMode = true ∧ (s.saved n).savedMode = s.kernelMode ∧ (s.saved n).savedPc = s.pc ∧
      (s.saved n).savedRegsAddr = s.frameAddress ∧ (s.saved n).outstanding = true ∧ (s.saved n).intEnabled = false ∧
      (s.saved n).memSize = s.memSize ∧ SamePaging s (s.saved n) ∧ SameRunning s (s.saved n) := by
  unfold State.saved
  refine ⟨by simp, by simp, by simp, dispatchSave_savedRegsAddr _ n, by simp, by simp, by simp,
    ⟨by simp, by simp, by simp⟩, by simp, by simp⟩

theorem samePaging_trans {s u t : State} : SamePaging s u → SamePaging u t → SamePaging s t
  | ⟨e, b, n⟩, ⟨e', b', n'⟩ => ⟨e'.trans e, b'.trans b, n'.trans n⟩

theorem sameRunning_trans {s u t : State} : SameRunning s u → SameRunning u t → SameRunning s t
  | ⟨r, l⟩, ⟨r', l'⟩ => ⟨r'.trans r, l'.trans l⟩

/-- Settles O11: the saving part fixes registers, frame and control state, and the vector part keeps them while it takes
the pc from the IVT. -/
theorem dispatchEffect : Obligations.DispatchEffect := by
  rintro s t n rfl hframe
  obtain ⟨kernel, mode, pc, addr, out, int, size, paging, running⟩ := saved_control s n
  obtain ⟨hregs, hmem, hsize, hpaging, ⟨⟨hpc, haddr, hmode⟩, hout⟩, hkernel, hint, hpend⟩ :=
    dispatchVector_frame (s.saved n) n
  obtain ⟨ivt, noHandler, handler⟩ := dispatchVector_outcome (s.saved n) n
  rw [dispatch_of_frame hframe, littleEndian_congr hmem, hmem, hsize, hkernel, hmode, hpc, haddr, hout, hint, hpend]
  rw [size] at ivt noHandler handler
  refine ⟨fun r => (hregs r).trans (dispatchSave_getReg _ r n), fun r k hk => saved_frame s n r hk,
    fun a ha => saved_outside_frame s n ha, size, kernel, mode, pc, addr, out, int, fun m => ?pending,
    samePaging_trans paging hpaging, ivt, noHandler, fun hb hz => ?handler⟩
  case pending =>
    rw [State.saved, dispatchSave_pending]
    exact getElem_pending_set _ n m false
  case handler =>
    obtain ⟨target, same⟩ := handler hb hz
    exact ⟨target, sameRunning_trans running same⟩

/-- Settles O12: without room for the frame the dispatch is only entered, then stopped. -/
theorem dispatchWithoutFrameStops : Obligations.DispatchWithoutFrameStops := by
  intro s n h
  rw [dispatch_of_no_frame h]
  exact ⟨⟨rfl, rfl⟩, fun _ => rfl, rfl, fun _ => rfl⟩

/-! ## IRET (49_system.md R215, 60_exceptions.md R255) -/

theorem returnFromInterrupt_of_frame (h : s.savedRegsAddr.toNat + 128 ≤ s.memSize.toNat) :
    s.returnFromInterrupt = { s with regs := s.frameRegs, pc := s.savedPc, kernelMode := s.savedMode, intEnabled := true,
                                     outstanding := false } := if_pos (inBounds_iff.2 h)

/-- What a register reads after IRET: its word of the frame, R0 always 0. -/
theorem returnFromInterrupt_getReg (h : s.savedRegsAddr.toNat + 128 ≤ s.memSize.toNat) (r : Reg) :
    s.returnFromInterrupt.getReg r = if r = 0 then 0#32 else s.physRead (s.savedRegsAddr.toNat + 4 * r.val) 4 := by
  rw [returnFromInterrupt_of_frame h, State.getReg, getElem_frameRegs]
  split <;> rfl

theorem returnFromInterrupt_of_no_frame (h : s.memSize.toNat < s.savedRegsAddr.toNat + 128) :
    s.returnFromInterrupt = s.stop .frameOutOfBounds := if_neg fun hb => absurd (inBounds_iff.1 hb) (Nat.not_le.2 h)

/-- Settles O14: with its frame in memory the return is one update of the state; else it stops. -/
theorem iretEffect : Obligations.IretEffect := by
  refine fun s hk => ⟨fun ho h => ⟨_, exec_iret hk ho, fun r => ?regs, ?rest⟩,
    fun ho h => ⟨_, exec_iret hk ho, ?stops⟩, fun ho => ?refused⟩
  case regs =>
    rw [returnFromInterrupt_getReg h, ← physRead_four_toNat]
    split <;> rfl
  case rest =>
    rw [returnFromInterrupt_of_frame h]
    exact ⟨rfl, rfl, rfl, rfl, rfl, ⟨rfl, rfl, rfl⟩, ⟨rfl, rfl, rfl⟩, ⟨rfl, rfl⟩, rfl, fun _ => rfl⟩
  case stops =>
    rw [returnFromInterrupt_of_no_frame h]
    exact ⟨rfl, rfl⟩
  case refused => simp [exec, execIret, hk, ho]

/-- Four bytes that are a word's, lowest first, are read as the word (20_memory.md R51). -/
theorem physRead_of_bytes {pa : Nat} {w : Word} (h : ∀ k, k < 4 → s.mem.read (pa + k) = w.extractLsb' (8 * k) 8) :
    s.physRead pa 4 = w := by
  rw [physRead_four, h 3 (by omega), h 2 (by omega), h 1 (by omega), show s.mem.read pa = _ from h 0 (by omega)]
  exact immOfBytes_extract w

/-- Settles O13: the frame bytes that v keeps are the words of the registers at s, so that the registers IRET loads are
those, and the saved context is what the dispatch recorded. -/
theorem dispatchThenIretRestores : Obligations.DispatchThenIretRestores := by
  intro s v n hframe hk hsaved hsize hbytes
  obtain ⟨-, frame, -, -, -, mode, pc, addr, out, -⟩ := dispatchEffect s _ n rfl hframe
  obtain ⟨⟨vpc, vaddr, vmode⟩, vout⟩ := hsaved
  have here : v.savedRegsAddr = s.frameAddress := vaddr.trans addr
  have room : v.savedRegsAddr.toNat + 128 ≤ v.memSize.toNat := by rw [here, hsize]; exact hframe
  refine ⟨_, exec_iret hk (vout.trans out), fun r => ?regs, ?rest⟩
  case regs =>
    rw [returnFromInterrupt_getReg room, here]
    split
    · next h => rw [h, getReg_zero]
    · refine physRead_of_bytes fun k hk => ?_
      have hr := r.isLt
      rw [Nat.add_assoc, State.frameAddress, hbytes _ (by omega), ← Nat.add_assoc]
      exact frame r k hk
  case rest =>
    rw [returnFromInterrupt_of_frame room]
    exact ⟨vpc.trans pc, vmode.trans mode, rfl, rfl, fun _ => rfl⟩

/-! ## SYSCALL, BREAK and RAISE (49_system.md R210, R211, R216) -/

/-- Settles O15: both are their trap. -/
theorem syscallAndBreakTrap : Obligations.SyscallAndBreakTrap := fun _ s =>
  ⟨⟨_, rfl, raiseTrap_trapRaised s 4⟩, ⟨_, rfl, raiseTrap_trapRaised s 5⟩⟩

/-- A trap raised with interrupts disabled ends the run at the next instruction. -/
theorem trapRaised_ends_run (h : TrapRaised s t n) (hi : s.intEnabled = false) :
    Stopped t (.undeliverable n) ∧ t.pc = s.pc + 8#32 ∧ ∀ u, step t ≠ .next u := by
  obtain ⟨-, pc, -, -, -, -, -, -, -, stops⟩ := h
  obtain ⟨halted, label⟩ := stops hi
  exact ⟨⟨halted, label⟩, pc, (stoppedMachineTakesNoStep t halted).2⟩

/-- Settles O16: the step is the instruction's trap, which cannot be delivered. -/
theorem syscallWithInterruptsOffEndsTheRun : Obligations.SyscallWithInterruptsOffEndsTheRun := by
  intro s bs code hr hi hf hdec
  obtain ⟨hsys, hbrk⟩ := syscallAndBreakTrap code s
  have executes {i : Instr} (hd : decode bs = .ok i) : step s = exec i s :=
    (step_of_fetch hr (.inl hi) hf).trans (executeBytes_of_decode hd)
  rcases hdec with hd | hd
  · obtain ⟨t, ht, trap⟩ := hsys
    obtain ⟨stopped, pc, ended⟩ := trapRaised_ends_run trap hi
    exact ⟨t, _, (executes hd).trans ht, stopped, rfl, pc, ended⟩
  · obtain ⟨t, ht, trap⟩ := hbrk
    obtain ⟨stopped, pc, ended⟩ := trapRaised_ends_run trap hi
    exact ⟨t, _, (executes hd).trans ht, stopped, rfl, pc, ended⟩

/-- Settles O18: the number's bound is the refusal's condition. -/
theorem raiseAbove255IsRefused : Obligations.RaiseAbove255IsRefused := fun _ _ h => dif_neg (Nat.not_lt.2 h)

end Sys2Proof.Machine

/-! SUPPORT. The register instructions, branches and jumps: each completes with one value written or one target, and the
value is the number that the spec gives (40_arithmetic.md to 44_muldiv.md, 47_branch.md, 48_jump.md). -/

namespace Sys2Proof.Machine

open Sys2Proof.Safety Sys2Proof.Certificates

variable {s t : State} {i : Instr} {rd : Reg} {v w a b target : Word}

/-! ## Completion by one of the two common ends -/

/-- An instruction that writes a register and goes on has this as its whole effect. -/
theorem completes_write (h : exec i s = .next (s.writeAndAdvance rd v)) (hv : v = w) :
    Completes i s fun t => WritesOnly s t rd w := ⟨_, h, hv ▸ writeAndAdvance_writesOnly s rd v⟩

theorem completes_jump (h : exec i s = .next (s.jump target)) (ht : target = w) :
    Completes i s fun t => JumpsOnly s t w := ⟨_, h, ht ▸ jump_jumpsOnly s target⟩

/-- A branch is a jump either to its target or to the next instruction (47_branch.md R196). -/
theorem branch_eq_jump (s : State) (taken : Bool) (offset : Word) :
    s.branch taken offset = s.jump (if taken then s.pc + offset else s.pc + 8#32) := by
  cases taken <;> rfl

theorem completes_branch {taken : Bool} {offset : Word} (h : exec i s = .next (s.branch taken offset))
    (ht : (if taken then s.pc + offset else s.pc + 8#32) = w) : Completes i s fun t => JumpsOnly s t w :=
  completes_jump (h.trans (congrArg _ (branch_eq_jump s taken offset))) ht

/-- An instruction that links and jumps. -/
theorem completes_link (h : exec i s = .next ((s.setReg rd s.link).jump target)) :
    Completes i s fun t => RegWritten s t rd (s.pc + 8#32) ∧ t.pc = target ∧ SameMem s t ∧ SameControl s t := by
  obtain ⟨regs, mem, control⟩ := setReg_jump_links s rd s.link target
  exact ⟨_, h, regs, rfl, mem, control⟩

/-! ## Moves of the pc and of control state to registers (49_system.md R212, R217, R222) -/

/-- Settles O24: the opcode 0 uses no field, and NOP is the advance. -/
theorem nopOnlyAdvances : Obligations.NopOnlyAdvances :=
  ⟨fun _ _ _ _ => encodes_of_usedOnly rfl, fun _ => completes_jump rfl rfl⟩

/-- Settles O25: the opcodes use the rd field alone; the value written is the saved pc, or the mode as a word. -/
theorem getpcAndGetmode : Obligations.GetpcAndGetmode := fun _ =>
  ⟨fun _ _ _ => ⟨encodes_of_usedOnly rfl, encodes_of_usedOnly rfl⟩,
    fun _ => ⟨completes_write rfl rfl, completes_write rfl rfl⟩⟩

/-! ## Arithmetic (40_arithmetic.md) -/

theorem add_eq_ofNat (a b : Word) : a + b = BitVec.ofNat 32 ((a.toNat + b.toNat) % 2 ^ 32) := by
  apply BitVec.eq_of_toNat_eq
  simp

theorem sub_eq_ofNat (a b : Word) : a - b = BitVec.ofNat 32 ((a.toNat + 2 ^ 32 - b.toNat) % 2 ^ 32) := by
  bv_omega

/-- Settles O26: the six instructions write a sum or a difference of words. -/
theorem sumsAndDifferences : Obligations.SumsAndDifferences := fun _ _ _ _ _ =>
  ⟨completes_write rfl (add_eq_ofNat _ _), completes_write rfl (add_eq_ofNat _ _),
    completes_write rfl (sub_eq_ofNat _ _), completes_write rfl (sub_eq_ofNat _ _),
    completes_write rfl (add_eq_ofNat _ _), completes_write rfl (add_eq_ofNat _ _)⟩

/-! ## Logic (41_logical.md) -/

theorem bitwise_and (a b : Word) : Bitwise (· && ·) a b (a &&& b) := fun _ _ => BitVec.getLsbD_and
theorem bitwise_or (a b : Word) : Bitwise (· || ·) a b (a ||| b) := fun _ _ => BitVec.getLsbD_or
theorem bitwise_xor (a b : Word) : Bitwise (· ^^ ·) a b (a ^^^ b) := fun _ _ => BitVec.getLsbD_xor
theorem bitwise_nor (a b : Word) : Bitwise (fun x y => !(x || y)) a b (~~~(a ||| b)) := fun k hk => by
  simp [hk]

theorem completes_bitwise {f : Bool → Bool → Bool} (h : exec i s = .next (s.writeAndAdvance rd v))
    (hv : Bitwise f a b v) : Completes i s fun t => ∃ v, Bitwise f a b v ∧ WritesOnly s t rd v :=
  ⟨_, h, v, hv, writeAndAdvance_writesOnly s rd v⟩

/-- Settles O27: the opcodes use the three register fields; each bit is the operation on the operands' bits. -/
theorem bitwiseRegisters : Obligations.BitwiseRegisters := fun _ _ _ =>
  ⟨fun _ => ⟨encodes_of_usedOnly rfl, encodes_of_usedOnly rfl, encodes_of_usedOnly rfl, encodes_of_usedOnly rfl⟩,
    fun _ => ⟨completes_bitwise rfl (bitwise_and _ _), completes_bitwise rfl (bitwise_or _ _),
      completes_bitwise rfl (bitwise_xor _ _), completes_bitwise rfl (bitwise_nor _ _)⟩⟩

theorem upperImmediate_eq_ofNat (imm : Word) : upperImmediate imm = BitVec.ofNat 32 (imm.toNat % 2 ^ 16 * 2 ^ 16) := by
  apply BitVec.eq_of_toNat_eq
  simp only [upperImmediate, BitVec.toNat_shiftLeft, BitVec.toNat_ofNat, Nat.shiftLeft_eq]
  omega

/-- Settles O28: as for registers, with the whole immediate as the second operand; LUI's value is its low half moved up. -/
theorem logicalImmediates : Obligations.LogicalImmediates := fun _ _ _ _ =>
  ⟨completes_bitwise rfl (bitwise_and _ _), completes_bitwise rfl (bitwise_or _ _),
    completes_bitwise rfl (bitwise_xor _ _), completes_write rfl (upperImmediate_eq_ofNat _)⟩

/-! ## Shifts (42_shift.md) -/

section
variable {amount : Word}

theorem shiftLeft_eq_ofNat (h : amount.toNat < 32) :
    shiftLeft v amount = BitVec.ofNat 32 (v.toNat * 2 ^ amount.toNat % 2 ^ 32) := by
  apply BitVec.eq_of_toNat_eq
  simp [shiftLeft, Config.shiftAmount, Nat.mod_eq_of_lt h, Nat.shiftLeft_eq]

theorem shiftRightLogical_eq_ofNat (h : amount.toNat < 32) :
    shiftRightLogical v amount = BitVec.ofNat 32 (v.toNat / 2 ^ amount.toNat) := by
  rw [← Nat.shiftRight_eq_div_pow, ← BitVec.toNat_ushiftRight, BitVec.ofNat_toNat, BitVec.setWidth_eq, shiftRightLogical,
    Config.shiftAmount, Nat.mod_eq_of_lt h]

theorem shiftRightArith_eq_ofInt (h : amount.toNat < 32) :
    shiftRightArith v amount = BitVec.ofInt 32 (v.toInt / 2 ^ amount.toNat) := by
  rw [shiftRightArith, Config.shiftAmount, Nat.mod_eq_of_lt h, BitVec.sshiftRight, Int.shiftRight_eq_div_pow]
  norm_cast

/-- The five low bits of the amount are its remainder by 32 (SHIFT_OVER, R146). -/
theorem shiftAmount_and (amount : Word) : Config.shiftAmount (amount &&& 31#32) = Config.shiftAmount amount := by
  have low : (amount &&& 31#32).toNat = amount.toNat % 32 := Nat.and_two_pow_sub_one_eq_mod amount.toNat 5
  rw [Config.shiftAmount, Config.shiftAmount, low, Nat.mod_mod]

end

/-- Settles O29: an amount below 32 is its own remainder, and a shift by it is a product or a floored quotient. -/
theorem shiftsByUpTo31 : Obligations.ShiftsByUpTo31 := fun _ _ _ _ _ =>
  ⟨fun h => ⟨completes_write rfl (shiftLeft_eq_ofNat h), completes_write rfl (shiftRightLogical_eq_ofNat h),
      completes_write rfl (shiftRightArith_eq_ofInt h)⟩,
    fun h => ⟨completes_write rfl (shiftLeft_eq_ofNat h), completes_write rfl (shiftRightLogical_eq_ofNat h),
      completes_write rfl (shiftRightArith_eq_ofInt h)⟩⟩

/-- Settles O30: a shift reads its amount through the remainder by 32 alone. -/
theorem shiftAmountIsTakenModulo32 : Obligations.ShiftAmountIsTakenModulo32 := by
  intro rd rt rs amount s
  simp only [exec, execSll, execSrl, execSra, execSllv, execSrlv, execSrav, shiftLeft, shiftRightLogical, shiftRightArith,
    shiftAmount_and, and_self]

/-! ## Comparisons (43_compare.md) -/

/-- Turning both sign bits makes the signed order unsigned. -/
theorem toInt_lt_iff (a b : Word) : a.toInt < b.toInt ↔ (a.toNat + 2 ^ 31) % 2 ^ 32 < (b.toNat + 2 ^ 31) % 2 ^ 32 := by
  have ha := a.isLt
  have hb := b.isLt
  rw [BitVec.toInt_eq_toNat_cond, BitVec.toInt_eq_toNat_cond]
  split <;> split <;> omega

theorem boolWord_ltSigned (a b : Word) :
    boolWord (ltSigned a b) = if (a.toNat + 2 ^ 31) % 2 ^ 32 < (b.toNat + 2 ^ 31) % 2 ^ 32 then 1#32 else 0#32 := by
  simp only [boolWord, ltSigned, decide_eq_true_eq, toInt_lt_iff]

theorem boolWord_ltUnsigned (a b : Word) : boolWord (ltUnsigned a b) = if a.toNat < b.toNat then 1#32 else 0#32 := by
  simp only [boolWord, ltUnsigned, decide_eq_true_eq]

/-- Settles O31: the opcodes use all fields but SLTU's immediate and SLTIU's rd; the order is that of the numbers. -/
theorem unsignedComparisons : Obligations.UnsignedComparisons := fun _ _ _ _ =>
  ⟨fun _ => encodes_of_usedOnly rfl, encodes_of_usedOnly rfl,
    fun _ => ⟨completes_write rfl (boolWord_ltUnsigned _ _), completes_write rfl (boolWord_ltUnsigned _ _)⟩⟩

/-- Settles O32: the signed order is the unsigned one with both sign bits turned. -/
theorem signedComparisons : Obligations.SignedComparisons := fun _ _ _ _ _ =>
  ⟨completes_write rfl (boolWord_ltSigned _ _), completes_write rfl (boolWord_ltSigned _ _)⟩

/-! ## Products (44_muldiv.md R160 to R162) -/

theorem mul_eq_ofNat (a b : Word) : a * b = BitVec.ofNat 32 (a.toNat * b.toNat % 2 ^ 32) := by
  apply BitVec.eq_of_toNat_eq
  simp

theorem mul_eq_ofInt (a b : Word) : a * b = BitVec.ofInt 32 (a.toInt * b.toInt) := by
  rw [BitVec.ofInt_mul, BitVec.ofInt_toInt, BitVec.ofInt_toInt]

/-- Settles O33: the low word of a product is the same for both readings of its operands. -/
theorem unsignedProducts : Obligations.UnsignedProducts := by
  refine fun rd rs rt => ⟨fun _ => ⟨encodes_of_usedOnly rfl, encodes_of_usedOnly rfl⟩,
    fun s => ⟨⟨_, rfl, ?_, ?_⟩, completes_write rfl rfl⟩⟩
  · rw [← mul_eq_ofNat]
    exact writeAndAdvance_writesOnly s rd _
  · rw [← mul_eq_ofInt]
    exact writeAndAdvance_writesOnly s rd _

/-- A word read as signed lies between -2^31 and 2^31. -/
theorem abs_toInt_le (a : Word) : |a.toInt| ≤ 2 ^ 31 := by
  have lower := BitVec.le_toInt a
  have upper := BitVec.toInt_lt (x := a)
  exact abs_le.2 ⟨lower, by omega⟩

/-- The two words of the signed product. -/
theorem mulHighSigned_product (a b : Word) :
    (mulHighSigned a b).toInt * 2 ^ 32 + ((a * b).toNat : Int) = a.toInt * b.toInt := by
  have bound : |a.toInt * b.toInt| ≤ 2 ^ 31 * 2 ^ 31 := by
    rw [abs_mul]
    exact mul_le_mul (abs_toInt_le a) (abs_toInt_le b) (abs_nonneg _) (by norm_num)
  obtain ⟨lower, upper⟩ := abs_le.1 bound
  have high : (mulHighSigned a b).toInt = a.toInt * b.toInt / 2 ^ 32 :=
    BitVec.toInt_ofInt_eq_self (by norm_num) (by omega) (by omega)
  have low : ((a * b).toNat : Int) = a.toInt * b.toInt % 2 ^ 32 := by
    rw [mul_eq_ofInt, BitVec.toNat_ofInt, Int.toNat_of_nonneg (Int.emod_nonneg _ (by norm_num))]
    norm_num
  rw [high, low, Int.ediv_mul_add_emod]

/-- Settles O34: MULH's word is the floored quotient of the signed product by 2^32, MUL's the remainder. -/
theorem signedHighProduct : Obligations.SignedHighProduct := fun _ _ _ _ =>
  ⟨_, _, mulHighSigned_product _ _, completes_write rfl rfl, completes_write rfl rfl⟩

/-! ## Division (44_muldiv.md R163 to R169) -/

/-- Settles O35: the quotient and the remainder of the two numbers, each below 2^32. -/
theorem unsignedDivision : Obligations.UnsignedDivision := by
  intro rd rs rt s h
  have pos : 0 < (s.getReg rt).toNat := Nat.pos_of_ne_zero fun h0 => h (BitVec.eq_of_toNat_eq h0)
  have quotient : divUnsigned (s.getReg rs) (s.getReg rt) = s.getReg rs / s.getReg rt := by
    rw [divUnsigned, if_neg pos.ne', ← BitVec.toNat_udiv, BitVec.ofNat_toNat, BitVec.setWidth_eq]
  have remainder : remUnsigned (s.getReg rs) (s.getReg rt) = s.getReg rs % s.getReg rt := by
    rw [remUnsigned, if_neg pos.ne', ← BitVec.toNat_umod, BitVec.ofNat_toNat, BitVec.setWidth_eq]
  refine ⟨_, _, ?_, ?_, completes_write rfl quotient, completes_write rfl remainder⟩
  · rw [BitVec.toNat_udiv, BitVec.toNat_umod, Nat.mul_comm, Nat.div_add_mod]
  · rw [BitVec.toNat_umod]
    exact Nat.mod_lt _ pos

/-- Rounding toward zero leaves the range of a word only for -2^31 by -1. -/
theorem tdiv_range {m k : Int} (hm : |m| ≤ 2 ^ 31) (hk : k ≠ 0) (hm' : m < 2 ^ 31) (h : ¬ (m = -2 ^ 31 ∧ k = -1)) :
    -2 ^ 31 ≤ m.tdiv k ∧ m.tdiv k < 2 ^ 31 := by
  obtain ⟨lower, -⟩ := abs_le.1 hm
  rcases eq_or_ne k 1 with rfl | h1
  · rw [Int.tdiv_one]
    exact ⟨lower, hm'⟩
  rcases eq_or_ne k (-1) with rfl | hn1
  · rw [Int.tdiv_neg, Int.tdiv_one]
    omega
  · have half : m.natAbs / k.natAbs ≤ m.natAbs / 2 := Nat.div_le_div_left (by omega) (by norm_num)
    have abs_quotient : (m.tdiv k).natAbs = m.natAbs / k.natAbs := Int.natAbs_tdiv m k
    omega

section
variable (hb : b.toInt ≠ 0) (ho : ¬ (a.toInt = -2 ^ 31 ∧ b.toInt = -1))
include hb ho

theorem divSigned_toInt : (divSigned a b).toInt = a.toInt.tdiv b.toInt := by
  obtain ⟨lower, upper⟩ := tdiv_range (abs_toInt_le a) hb BitVec.toInt_lt ho
  rw [divSigned, if_neg hb, if_neg (by simpa [divOverflows] using ho)]
  exact BitVec.toInt_ofInt_eq_self (by norm_num) lower upper

theorem remSigned_toInt : (remSigned a b).toInt = a.toInt.tmod b.toInt := by
  have remainder : a.toInt - a.toInt.tdiv b.toInt * b.toInt = a.toInt.tmod b.toInt := by
    rw [Int.tmod_def, Int.mul_comm]
  have small : (a.toInt.tmod b.toInt).natAbs < b.toInt.natAbs := by
    rw [Int.natAbs_tmod]
    exact Nat.mod_lt _ (Int.natAbs_pos.2 hb)
  obtain ⟨lower, upper⟩ := abs_le.1 (abs_toInt_le b)
  rw [remSigned, if_neg hb, if_neg (by simpa [divOverflows] using ho), remainder]
  exact BitVec.toInt_ofInt_eq_self (by norm_num) (by omega) (by omega)

end

/-- Settles O36: the quotient rounded toward zero, and its remainder, which has the dividend's sign. -/
theorem signedDivision : Obligations.SignedDivision := by
  intro rd rs rt s hz hov
  have hb : (s.getReg rt).toInt ≠ 0 := fun h => hz (BitVec.eq_of_toInt_eq h)
  have ho : ¬ ((s.getReg rs).toInt = -2 ^ 31 ∧ (s.getReg rt).toInt = -1) := fun ⟨ha, hb⟩ =>
    hov ⟨BitVec.eq_of_toInt_eq ha, BitVec.eq_of_toInt_eq hb⟩
  refine ⟨_, _, ?law, ?bound, fun h => ?nonneg, fun h => ?nonpos, completes_write rfl rfl, completes_write rfl rfl⟩
  all_goals rw [remSigned_toInt hb ho]
  case law => rw [divSigned_toInt hb ho, Int.tdiv_mul_add_tmod]
  case bound =>
    rw [Int.abs_eq_natAbs, Int.abs_eq_natAbs, Int.natAbs_tmod]
    exact_mod_cast Nat.mod_lt _ (Int.natAbs_pos.2 hb)
  case nonneg => exact Int.tmod_nonneg _ h
  case nonpos =>
    have mirrored := Int.tmod_nonneg (s.getReg rt).toInt (Int.neg_nonneg.2 h)
    rwa [Int.neg_tmod, Int.neg_nonneg] at mirrored

/-- Settles O37: the first two tests of each division are the spec's two corners. -/
theorem divisionCorners : Obligations.DivisionCorners := by
  refine fun rd rs rt s => ⟨fun hz => ?zero, fun ha hb => ?overflow⟩
  case zero =>
    exact ⟨completes_write rfl (if_pos (by rw [hz]; rfl)), completes_write rfl (if_pos (by rw [hz]; rfl)),
      completes_write rfl (if_pos (by rw [hz]; rfl)), completes_write rfl (if_pos (by rw [hz]; rfl))⟩
  case overflow =>
    exact ⟨completes_write rfl (by rw [ha, hb]; decide), completes_write rfl (by rw [ha, hb]; decide)⟩

/-! ## Branches (47_branch.md) -/

theorem toInt_neg_iff (a : Word) : a.toInt < 0 ↔ a.getLsbD 31 = true := by
  rw [← BitVec.msb_eq_getLsbD_last, BitVec.msb_eq_toInt, decide_eq_true_iff]

theorem toInt_nonpos_iff (a : Word) : a.toInt ≤ 0 ↔ a = 0#32 ∨ a.getLsbD 31 = true := by
  rw [← toInt_neg_iff, le_iff_eq_or_lt]
  exact or_congr_left ⟨fun h => BitVec.eq_of_toInt_eq h, fun h => by rw [h]; rfl⟩

/-- Settles O42: each condition on the signed value is one on bit 31 and on being 0. -/
theorem branchesOnlySetThePc : Obligations.BranchesOnlySetThePc := by
  intro rs rt offset s
  refine ⟨completes_branch rfl ?beq, completes_branch rfl ?bne, completes_branch rfl ?blez, completes_branch rfl ?bgtz,
    completes_branch rfl ?bltz, completes_branch rfl ?bgez⟩
  case beq => simp only [beq_iff_eq]
  case bne => simp only [bne_iff_ne, ne_eq, ite_not]
  case blez => simp only [leZero, decide_eq_true_eq, toInt_nonpos_iff]
  case bgtz => simp only [gtZero, decide_eq_true_eq, ← not_le, toInt_nonpos_iff, ite_not]
  case bltz => simp only [ltZero, decide_eq_true_eq, toInt_neg_iff]
  case bgez => simp only [geZero, decide_eq_true_eq, ← not_lt, toInt_neg_iff, ite_not]

/-! ## Jumps (48_jump.md) -/

/-- Settles O43: J and JAL use the immediate alone, JR the rs field alone; J and JR are jumps, JAL also links in R31. -/
theorem jumpsReachTheirTargets : Obligations.JumpsReachTheirTargets := fun _ _ =>
  ⟨fun _ _ _ => ⟨encodes_of_usedOnly rfl, encodes_of_usedOnly rfl, encodes_of_usedOnly rfl⟩,
    fun _ => ⟨completes_jump rfl rfl, completes_link rfl, completes_jump rfl rfl⟩⟩

/-- Settles O44: two different registers link and jump, the same one is refused. -/
theorem jalrLinksAndJumps : Obligations.JalrLinksAndJumps := fun _ _ _ =>
  ⟨fun h => completes_link (if_neg h), fun h => if_pos h⟩

/-! ## What an assembler writes (30_encoding.md R100, R102) -/

theorem add_branchOffset (label pc : Word) : pc + branchOffset label pc = label := by
  rw [branchOffset, BitVec.add_comm, BitVec.sub_add_cancel]

/-- A taken branch written with a label reaches it (47_branch.md R196). -/
theorem completes_branch_label {taken : Bool} {label : Word} (ht : taken = true)
    (h : exec i s = .next (s.branch taken (branchOffset label s.pc))) : Completes i s fun t => JumpsOnly s t label :=
  completes_branch h (by rw [if_pos ht, add_branchOffset])

/-- Settles O55: the condition takes the branch, and the offset from the branch's own address leads to the label. -/
theorem labelOperandsReachTheirLabels : Obligations.LabelOperandsReachTheirLabels := fun _ _ _ _ =>
  ⟨fun h => completes_branch_label (beq_iff_eq.2 h) rfl, fun h => completes_branch_label (bne_iff_ne.2 h) rfl,
    fun h => completes_branch_label (decide_eq_true h) rfl, fun h => completes_branch_label (decide_eq_true h) rfl,
    fun h => completes_branch_label (decide_eq_true h) rfl, fun h => completes_branch_label (decide_eq_true h) rfl,
    completes_jump rfl rfl, completes_link rfl⟩

/-- The two halves that LA loads, joined (30_encoding.md R102). -/
theorem upperImmediate_or (v : Word) :
    upperImmediate ((v.extractLsb' 16 16).setWidth 32) ||| (v.extractLsb' 0 16).setWidth 32 = v := by
  apply BitVec.eq_of_getLsbD_eq
  intro k hk
  simp only [upperImmediate, BitVec.getLsbD_or, BitVec.getLsbD_shiftLeft, BitVec.getLsbD_setWidth,
    BitVec.getLsbD_extractLsb', hk, Nat.zero_add]
  by_cases low : k < 16
  · simp [low]
  · simp [low, show k - 16 < 16 by omega, show k - 16 < 32 by omega, show 16 + (k - 16) = k by omega]

theorem complement_eq_ofNat (a : Word) : ~~~(a ||| 0#32) = BitVec.ofNat 32 (2 ^ 32 - 1 - a.toNat) := by
  rw [BitVec.or_zero, ← BitVec.toNat_not, BitVec.ofNat_toNat, BitVec.setWidth_eq]

/-- The two instructions of LA: the upper half written first is read by the second, except in R0, which keeps neither. -/
theorem writes_twice (s : State) (rd : Reg) (v w x : Word) (hx : w ||| x = v) :
    let t := s.writeAndAdvance rd w
    let u := t.writeAndAdvance rd (t.getReg rd ||| x)
    RegWritten s u rd v ∧ u.pc = s.pc + 16#32 ∧ SameMem s u ∧ SameControl s u := by
  refine ⟨fun r => ?regs, ?pc, ⟨by simp, by simp⟩, ⟨by simp, by simp, by simp⟩, ⟨⟨by simp, by simp, by simp⟩, by simp⟩,
    ⟨by simp, by simp⟩, by simp, by simp, by simp⟩
  case regs =>
    simp only [writeAndAdvance_getReg]
    by_cases h : r = rd ∧ r ≠ 0
    · obtain ⟨rfl, hne⟩ := h
      simp [hne, hx]
    · simp only [h, if_false]
  case pc =>
    rw [writeAndAdvance_pc, writeAndAdvance_pc, BitVec.add_assoc]
    rfl

/-- Settles O54: R0 as an operand is 0, the operations' unit, and equal to itself and not negative, so that the branches are
taken. -/
theorem pseudoInstructions : Obligations.PseudoInstructions := by
  intro rd rs v s
  refine ⟨⟨_, rfl, completes_write rfl BitVec.or_zero⟩, ⟨_, rfl, completes_write rfl BitVec.zero_or⟩,
    ⟨_, rfl, completes_write rfl (complement_eq_ofNat _)⟩, ⟨_, rfl, completes_branch rfl rfl⟩,
    ⟨_, rfl, completes_branch rfl rfl⟩, ⟨_, _, rfl, _, rfl, _, rfl, ?la⟩⟩
  case la => exact writes_twice s rd v _ _ (upperImmediate_or v)

end Sys2Proof.Machine

/-! SUPPORT. Address translation, and the loads and stores through it (20_memory.md R50 to R73; 45_load.md; 46_store.md). -/

namespace Sys2Proof.Machine

open Sys2Proof.Safety Sys2Proof.Certificates

variable {s t : State} {va p : Word} {acc : AccessKind} {n a : Nat}

/-! ## Translation (20_memory.md R65 to R73) -/

theorem translates_eq_false (h : s.kernelMode = true ∨ s.pagingEnabled = false) : s.translates = false := by
  rcases h with h | h <;> simp [State.translates, h]

/-- A successful walk found an entry with V and U set, whose page number the address takes (20_memory.md R69, R70). -/
theorem translate_ok_paged (ht : s.translates = true) (h : s.translate va acc = .ok p) :
    UserPage s (va.toNat / 4096) ∧ ptePermits (s.pte va) acc = true ∧ p = ptePhysical (s.pte va) (pageOffset va) := by
  rcases translate_ok h with ⟨hf, -⟩ | ⟨-, hn, he, hperm, hp⟩
  · simp [ht] at hf
  · have hn' : va.toNat / 4096 < s.numPages.toNat := pageNumber_toNat ▸ hn
    have he' : EntryInMemory s (va.toNat / 4096) := inBounds_pteAddress.1 (inBounds_iff.2 he)
    refine ⟨(userPage_iff_pte hn' he').2 ?_, hperm, hp⟩
    cases acc with
    | read => exact (ptePermits_read _).1 hperm
    | write => exact ((ptePermits_write _).1 hperm).1
    | exec => exact ((ptePermits_exec _).1 hperm).1

theorem ptePhysical_toNat (va pte : Word) :
    (ptePhysical pte (pageOffset va)).toNat = pte.toNat / 4096 * 4096 + va.toNat % 4096 := by
  have frame := ptePhysical_div pte (pageOffset va)
  have offset := ptePhysical_mod (va := va) pte
  omega

/-- A translated address is the entry's page number and the page offset (20_memory.md R67, R70). -/
theorem translate_ok_toNat (ht : s.translates = true) (h : s.translate va acc = .ok p) :
    p.toNat = pageEntry s (va.toNat / 4096) / 4096 * 4096 + va.toNat % 4096 := by
  obtain ⟨-, -, rfl⟩ := translate_ok_paged ht h
  rw [ptePhysical_toNat, pte_toNat]

/-- An entry outside memory gives a memory fault, whatever it would hold (20_memory.md R70, D24). -/
theorem translate_of_entry_outside (ht : s.translates = true) (hn : va.toNat / 4096 < s.numPages.toNat)
    (he : ¬ EntryInMemory s (va.toNat / 4096)) : s.translate va acc = .error IntNum.memFault := by
  rw [State.translate, if_pos ht, if_pos (by rwa [pageNumber_toNat]), if_neg fun hb => he (inBounds_pteAddress.1 hb)]

/-- Settles O47: the entry's bits 31:12 are the page number; only an entry outside memory gives fault 2; all four permission
bits permit every access. -/
theorem translatedAddress : Obligations.TranslatedAddress := by
  intro s va acc hk hp
  have ht := translates_of_userPaging hk hp
  refine ⟨fun p h => translate_ok_toNat ht h, ?memFault, fun huser hw hx => ?permitted⟩
  case memFault =>
    by_cases hn : va.toNat / 4096 < s.numPages.toNat
    · by_cases he : EntryInMemory s (va.toNat / 4096)
      · rw [translate_of_entryInMemory ht hn he]
        split <;> simp [he, IntNum.pageFault]
      · rw [translate_of_entry_outside ht hn he]
        simp [hn, he, IntNum.memFault]
    · rw [translate_of_numPages_le ht (Nat.le_of_not_lt hn)]
      simp [hn, IntNum.pageFault]
  case permitted =>
    obtain ⟨hn, he, -⟩ := id huser
    rw [← pte_getLsbD] at hw hx
    have permits : ptePermits (s.pte va) acc = true := by
      have hvu := (userPage_iff_pte hn he).1 huser
      cases acc with
      | read => exact (ptePermits_read _).2 hvu
      | write => exact (ptePermits_write _).2 ⟨hvu, hw⟩
      | exec => exact (ptePermits_exec _).2 ⟨hvu, hx⟩
    exact ⟨_, by rw [translate_of_entryInMemory ht hn he, if_pos permits]⟩

/-- The state with other paging registers. -/
def State.withPaging (s : State) (e : Bool) (base num : Word) : State :=
  { s with pagingEnabled := e, pageTableBase := base, numPages := num }

section
variable (s : State) (n : IntNum) (e : Bool) (base num : Word)

theorem setReg_withPaging (r : Reg) (v : Word) :
    (s.withPaging e base num).setReg r v = (s.setReg r v).withPaging e base num := by
  unfold State.setReg
  split <;> rfl

theorem frameAddress_withPaging : (s.withPaging e base num).frameAddress = s.frameAddress := rfl

theorem frameBytes_withPaging : (s.withPaging e base num).frameBytes = s.frameBytes := rfl

theorem saved_withPaging : (s.withPaging e base num).saved n = (s.saved n).withPaging e base num := by
  have enter : (s.withPaging e base num).dispatchEnter = s.dispatchEnter.withPaging e base num := rfl
  rw [State.saved, State.saved, enter]
  simp only [State.dispatchSave, frameAddress_withPaging, frameBytes_withPaging, ← setReg_withPaging]
  simp only [State.withPaging]

theorem dispatchVector_withPaging :
    (s.withPaging e base num).dispatchVector n = (s.dispatchVector n).withPaging e base num := by
  have bounds : (s.withPaging e base num).inBounds (ivtAddress n) 4 = s.inBounds (ivtAddress n) 4 := rfl
  have word : (s.withPaging e base num).physRead (ivtAddress n) 4 = s.physRead (ivtAddress n) 4 := rfl
  rw [State.dispatchVector, State.dispatchVector, bounds, word]
  split
  · split <;> rfl
  · rfl

theorem dispatch_withPaging : (s.withPaging e base num).dispatch n = (s.dispatch n).withPaging e base num := by
  rcases Nat.lt_or_ge s.memSize.toNat (s.frameAddress.toNat + 128) with h | h
  · rw [dispatch_of_no_frame h]
    exact dispatch_of_no_frame (s := s.withPaging e base num) h
  · rw [dispatch_of_frame h, ← dispatchVector_withPaging, ← saved_withPaging]
    exact dispatch_of_frame (s := s.withPaging e base num) h

theorem returnFromInterrupt_withPaging :
    (s.withPaging e base num).returnFromInterrupt = s.returnFromInterrupt.withPaging e base num := by
  rcases Nat.lt_or_ge s.memSize.toNat (s.savedRegsAddr.toNat + 128) with h | h
  · rw [returnFromInterrupt_of_no_frame h]
    exact returnFromInterrupt_of_no_frame (s := s.withPaging e base num) h
  · rw [returnFromInterrupt_of_frame h]
    exact returnFromInterrupt_of_frame (s := s.withPaging e base num) h

end

/-- Settles O45: outside user mode with paging a translation is the identity; inside it one that succeeds found a user
page; and the paging registers are no part of what a dispatch or an IRET reads. -/
theorem translationAppliesInUserPagingOnly : Obligations.TranslationAppliesInUserPagingOnly := by
  refine ⟨fun s va acc n a h => ?physical, fun s va p acc n a hk hp => ?paged, fun s n e base num => ⟨?dispatch, ?iret⟩⟩
  case physical =>
    have same {va acc} : s.translate va acc = .ok va := translate_of_not_translates (translates_eq_false h)
    refine ⟨same, ?_, fun bs => ?_⟩
    · rw [dataAddress_ok, same]
      simp
    · rw [fetch_bytes, same]
      simp
  case paged =>
    have ht := translates_of_userPaging hk hp
    refine ⟨fun h => (translate_ok_paged ht h).1, fun h => ?_, fun bs h => ?_⟩
    · obtain ⟨-, p, hp, -⟩ := dataAddress_ok.1 h
      exact (translate_ok_paged ht hp).1
    · obtain ⟨-, p, hp, -⟩ := fetch_bytes.1 h
      exact (translate_ok_paged ht hp).1
  case dispatch => exact dispatch_withPaging s n e base num
  case iret => exact returnFromInterrupt_withPaging s e base num

/-- An access of 1, 2, 4 or 8 bytes aligned to its size ends in the page in which it begins (20_memory.md R73). -/
theorem aligned_in_page {x k : Nat} (hn : n = 1 ∨ n = 2 ∨ n = 4 ∨ n = 8) (hx : x % n = 0) (hk : k < n) :
    x % 4096 + k < 4096 := by
  rcases hn with rfl | rfl | rfl | rfl <;> omega

/-- Adding within a page carries no bit out of the offset. -/
theorem toNat_add_in_page {x : Word} {k : Nat} (h : x.toNat % 4096 + k < 4096) :
    (x + BitVec.ofNat 32 k).toNat = x.toNat + k := by
  have hx := x.isLt
  rw [BitVec.toNat_add, BitVec.toNat_ofNat]
  omega

/-- Addresses of one page have the same entry. -/
theorem pte_congr {x y : Word} (h : x.toNat / 4096 = y.toNat / 4096) : s.pte x = s.pte y := by
  apply BitVec.eq_of_toNat_eq
  rw [pte_toNat, pte_toNat, h]

/-- The offset survives translation (20_memory.md R66). -/
theorem translate_ok_mod (h : s.translate va acc = .ok p) : p.toNat % 4096 = va.toNat % 4096 := by
  rcases translate_ok h with ⟨-, rfl⟩ | ⟨-, -, -, -, rfl⟩
  · rfl
  · exact ptePhysical_mod _

/-- One translation serves every address of the page above it. -/
theorem translate_add {k : Nat} (hk : va.toNat % 4096 + k < 4096) (h : s.translate va acc = .ok p) :
    s.translate (va + BitVec.ofNat 32 k) acc = .ok (p + BitVec.ofNat 32 k) := by
  by_cases ht : s.translates = true
  · obtain ⟨⟨hn, he, -⟩, hperm, hp⟩ := translate_ok_paged ht h
    have sum := toNat_add_in_page hk
    have page : (va + BitVec.ofNat 32 k).toNat / 4096 = va.toNat / 4096 := by omega
    have physical : ptePhysical (s.pte va) (pageOffset (va + BitVec.ofNat 32 k)) = p + BitVec.ofNat 32 k := by
      apply BitVec.eq_of_toNat_eq
      rw [toNat_add_in_page (by rwa [translate_ok_mod h]), hp, ptePhysical_toNat, ptePhysical_toNat]
      omega
    rw [translate_of_entryInMemory ht (by rwa [page]) (by rwa [page]), pte_congr page, if_pos hperm, physical]
  · have hf : s.translates = false := by simpa using ht
    rw [translate_of_not_translates hf] at h ⊢
    rw [Except.ok.inj h]

/-- Settles O48: the sum stays below the page's end, so that the page number, and with it the entry, is the same. -/
theorem noAccessCrossesAPage : Obligations.NoAccessCrossesAPage := by
  intro s va p acc n k hn hva hk h
  have inPage := aligned_in_page hn hva hk
  have offset := translate_ok_mod h
  exact ⟨translate_add inPage h, by omega, toNat_add_in_page (by omega)⟩

/-! ## Data accesses (20_memory.md R62, R63) -/

/-- What an access that is not served raises, in the order of the checks. -/
theorem dataAddress_of_accessRaises {k : IntNum} (h : AccessRaises s va n acc k) : s.dataAddress va n acc = .error k := by
  rcases h with ⟨hal, rfl⟩ | ⟨hal, ht | ⟨p, ht, hb, rfl⟩⟩
  · exact if_pos hal
  · simp [State.dataAddress, hal, ht]
  · simp [State.dataAddress, hal, ht, State.inBounds, hb, IntNum.memFault]

/-! ## Loads (45_load.md) -/

section
variable {i : Instr} {rt rs : Reg} {f : Word → Word} {v offset : Word}

theorem effectiveAddress_toNat (s : State) (rs : Reg) (offset : Word) :
    (s.effectiveAddress rs offset).toNat = ((s.getReg rs).toNat + offset.toNat) % 2 ^ 32 := BitVec.toNat_add ..

theorem completes_load (h : exec i s = .next (s.load rt va n f)) (ht : s.translate va .read = .ok p)
    (hal : va.toNat % n = 0) (hb : p.toNat + n ≤ s.memSize.toNat) (hv : f (s.physRead p.toNat n) = v) :
    Completes i s fun t => WritesOnly s t rt v := by
  have served : s.dataAddress va n .read = .ok p.toNat := dataAddress_ok.2 ⟨hal, p, ht, hb, rfl⟩
  exact completes_write (h.trans (congrArg _ (load_of_ok served))) hv

theorem completes_load_fault {k : IntNum} (h : exec i s = .next (s.load rt va n f)) (hr : AccessRaises s va n .read k) :
    Completes i s fun t => FaultRaised s t k :=
  ⟨_, h.trans (congrArg _ (load_of_error (dataAddress_of_accessRaises hr))), raiseFault_faultRaised s k⟩

end

theorem littleEndian_two_lt (s : State) (a : Nat) : littleEndian s a 2 < 2 ^ 16 := littleEndian_lt s a 2

theorem littleEndian_one_lt (s : State) (a : Nat) : littleEndian s a 1 < 2 ^ 8 := littleEndian_lt s a 1

/-- The low half of a halfword that was read. -/
theorem extractLsb'_physRead_two (s : State) (a : Nat) :
    (s.physRead a 2).extractLsb' 0 16 = BitVec.ofNat 16 (littleEndian s a 2) := by
  have h := littleEndian_two_lt s a
  apply BitVec.eq_of_toNat_eq
  rw [physRead_eq_littleEndian, BitVec.extractLsb'_toNat, BitVec.toNat_ofNat, BitVec.toNat_ofNat, Nat.shiftRight_zero]
  omega

theorem extractLsb'_physRead_one (s : State) (a : Nat) :
    (s.physRead a 1).extractLsb' 0 8 = BitVec.ofNat 8 (littleEndian s a 1) := by
  have h := littleEndian_one_lt s a
  apply BitVec.eq_of_toNat_eq
  rw [physRead_eq_littleEndian, BitVec.extractLsb'_toNat, BitVec.toNat_ofNat, BitVec.toNat_ofNat, Nat.shiftRight_zero]
  omega

/-- Sign extension of a number of n bits to a word (00_scope.md R9). -/
theorem signExtend_ofNat {n x : Nat} (hn : 0 < n) (hn32 : n ≤ 32) (hx : x < 2 ^ n) :
    (BitVec.ofNat n x).signExtend 32 = BitVec.ofNat 32 (signExtended n x) := by
  have top : 2 ^ n = 2 * 2 ^ (n - 1) := by rw [← Nat.pow_succ', Nat.succ_eq_add_one, Nat.sub_add_cancel hn]
  have fits : 2 ^ n ≤ 2 ^ 32 := Nat.pow_le_pow_right (by norm_num) hn32
  have small : x < 2 ^ 32 := hx.trans_le fits
  apply BitVec.eq_of_toNat_eq
  rw [BitVec.toNat_signExtend, BitVec.msb_eq_decide, BitVec.toNat_setWidth, BitVec.toNat_ofNat, BitVec.toNat_ofNat,
    Nat.mod_eq_of_lt hx, Nat.mod_eq_of_lt small, signExtended]
  by_cases h : x < 2 ^ (n - 1)
  · rw [if_pos h, if_neg (by simpa using h), Nat.add_zero, Nat.mod_eq_of_lt small]
  · rw [if_neg h, if_pos (by simpa using h), Nat.mod_eq_of_lt (by omega)]
    omega

theorem sext16_physRead (s : State) (a : Nat) :
    sext16 (s.physRead a 2) = BitVec.ofNat 32 (signExtended 16 (littleEndian s a 2)) := by
  rw [sext16, extractLsb'_physRead_two, signExtend_ofNat (by norm_num) (by norm_num) (littleEndian_two_lt s a)]

theorem sext8_physRead (s : State) (a : Nat) :
    sext8 (s.physRead a 1) = BitVec.ofNat 32 (signExtended 8 (littleEndian s a 1)) := by
  rw [sext8, extractLsb'_physRead_one, signExtend_ofNat (by norm_num) (by norm_num) (littleEndian_one_lt s a)]

theorem zext16_physRead (s : State) (a : Nat) : zext16 (s.physRead a 2) = BitVec.ofNat 32 (littleEndian s a 2) := by
  rw [zext16, extractLsb'_physRead_two, BitVec.setWidth_ofNat_of_le_of_lt (by norm_num) (littleEndian_two_lt s a)]

theorem zext8_physRead (s : State) (a : Nat) : zext8 (s.physRead a 1) = BitVec.ofNat 32 (littleEndian s a 1) := by
  rw [zext8, extractLsb'_physRead_one, BitVec.setWidth_ofNat_of_le_of_lt (by norm_num) (littleEndian_one_lt s a)]

/-- Settles O38: a served access gives the bytes' number, which the five loads extend. -/
theorem loadsReadMemory : Obligations.LoadsReadMemory := by
  refine fun rt rs offset s p => ⟨effectiveAddress_toNat s rs offset, fun ht => ⟨fun hal hb => ?_, fun hal hb => ⟨?_, ?_⟩,
    fun hb => ⟨?_, ?_⟩⟩⟩
  · exact completes_load rfl ht hal hb (physRead_eq_littleEndian s _ 4)
  · exact completes_load rfl ht hal hb (sext16_physRead s _)
  · exact completes_load rfl ht hal hb (zext16_physRead s _)
  · exact completes_load rfl ht (Nat.mod_one _) hb (sext8_physRead s _)
  · exact completes_load rfl ht (Nat.mod_one _) hb (zext8_physRead s _)

/-! ## Stores (46_store.md) -/

section
variable {i : Instr} {v : Word}

theorem completes_store (h : exec i s = .next (s.store va n v)) (ht : s.translate va .write = .ok p)
    (hal : va.toNat % n = 0) (hb : p.toNat + n ≤ s.memSize.toNat) :
    Completes i s fun t => BytesWritten s t p.toNat n v ∧ t.pc = s.pc + 8#32 ∧ SameRegs s t ∧ SameControl s t := by
  have served : s.dataAddress va n .write = .ok p.toNat := dataAddress_ok.2 ⟨hal, p, ht, hb, rfl⟩
  exact ⟨_, h.trans (congrArg _ (store_of_ok served)), physWrite_bytesWritten s p.toNat n v, rfl, fun _ => rfl,
    ⟨rfl, rfl, rfl⟩, ⟨⟨rfl, rfl, rfl⟩, rfl⟩, ⟨rfl, rfl⟩, rfl, rfl, rfl⟩

theorem completes_store_fault {k : IntNum} (h : exec i s = .next (s.store va n v)) (hr : AccessRaises s va n .write k) :
    Completes i s fun t => FaultRaised s t k :=
  ⟨_, h.trans (congrArg _ (store_of_error (dataAddress_of_accessRaises hr))), raiseFault_faultRaised s k⟩

end

/-- Settles O39: a served access writes the register's low bytes at the translated address. -/
theorem storesWriteOnlyTheirBytes : Obligations.StoresWriteOnlyTheirBytes := fun _ rs offset s _ =>
  ⟨effectiveAddress_toNat s rs offset, fun ht => ⟨completes_store rfl ht, completes_store rfl ht,
    completes_store rfl ht (Nat.mod_one _)⟩⟩

/-- Settles O40: each of the eight is a load or a store, and what is not served raises. -/
theorem failedAccessesRaise : Obligations.FailedAccessesRaise := fun _ _ _ _ _ =>
  ⟨completes_load_fault rfl, fun h => ⟨completes_load_fault rfl h, completes_load_fault rfl h⟩,
    fun h => ⟨completes_load_fault rfl h, completes_load_fault rfl h⟩, completes_store_fault rfl, completes_store_fault rfl,
    completes_store_fault rfl⟩

/-- The m bytes from the j-th on of a stored word are its bits from 8j on (20_memory.md R52). -/
theorem littleEndian_physWrite (s : State) (pa j m : Nat) (w : Word) (h : j + m ≤ 4) :
    littleEndian (s.physWrite pa 4 w) (pa + j) m = w.toNat / 2 ^ (8 * j) % 2 ^ (8 * m) := by
  induction m with
  | zero => simp [littleEndian, Nat.mod_one]
  | succ m ih =>
    have byte : ((s.physWrite pa 4 w).mem.read (pa + j + m)).toNat = w.toNat / 2 ^ (8 * j) / 2 ^ (8 * m) % 2 ^ 8 := by
      rw [read_physWrite, if_pos (by omega), BitVec.extractLsb'_toNat, Nat.shiftRight_eq_div_pow, Nat.div_div_eq_div_mul,
        ← pow_add, show 8 * (pa + j + m - pa) = 8 * j + 8 * m by omega]
    have ih := ih (by omega)
    rw [littleEndian] at ih ⊢
    rw [Finset.sum_range_succ, ih, byte, show 8 * (m + 1) = 8 * m + 8 by ring, pow_add, Nat.mod_mul]
    ring

/-- Settles O41: in kernel mode the addresses are physical; the bytes loaded are among the four that the store wrote. -/
theorem narrowLoadsSeeTheStoredWord : Obligations.NarrowLoadsSeeTheStoredWord := by
  intro rt rs rd offset k s t hk hstore hal hb hk4
  have physical {u : State} {va acc} (hu : u.kernelMode = true) : u.translate va acc = .ok va :=
    translate_of_not_translates (translates_eq_false (.inl hu))
  have served : s.dataAddress (s.effectiveAddress rs offset) 4 .write = .ok (s.effectiveAddress rs offset).toNat :=
    dataAddress_ok.2 ⟨hal, _, physical hk, hb, rfl⟩
  have stored : t = (s.physWrite (s.effectiveAddress rs offset).toNat 4 (s.getReg rt)).advance :=
    (Host.Outcome.next.inj (hstore.symm.trans (congrArg _ (store_of_ok served))))
  have address : (t.effectiveAddress rs (offset + k)).toNat = (s.effectiveAddress rs offset).toNat + k.toNat := by
    have same : t.effectiveAddress rs (offset + k) = s.effectiveAddress rs offset + k := by
      rw [stored, State.effectiveAddress, advance_getReg, physWrite_getReg, State.effectiveAddress, BitVec.add_assoc]
    have upper := (s.effectiveAddress rs offset).isLt
    rw [same, BitVec.toNat_add]
    omega
  have kernel : t.kernelMode = true := stored ▸ hk
  have size : t.memSize = s.memSize := stored ▸ rfl
  have bytes (m : Nat) (hm : k.toNat + m ≤ 4) : littleEndian t (t.effectiveAddress rs (offset + k)).toNat m =
      (s.getReg rt).toNat / 2 ^ (8 * k.toNat) % 2 ^ (8 * m) := by
    rw [address, ← littleEndian_physWrite s _ _ _ _ hm, stored]
    exact littleEndian_congr rfl _ _
  refine ⟨?lbu, fun heven => ?lhu⟩
  case lbu =>
    refine completes_load rfl (physical kernel) (Nat.mod_one _) (by rw [address, size]; omega) ?_
    rw [zext8_physRead, bytes 1 (by omega)]
  case lhu =>
    refine completes_load rfl (physical kernel) (by omega) (by rw [address, size]; omega) ?_
    rw [zext16_physRead, bytes 2 (by omega)]

end Sys2Proof.Machine

/-! SUPPORT. Which instruction writes which control state, said once, and what follows for privilege, modes and the saved
context (10_state.md R36; 60_exceptions.md R257 to R262). -/

namespace Sys2Proof.Machine

open Sys2Proof.Safety Sys2Proof.Certificates

variable {s t : State} {i : Instr} {k n : IntNum}

/-! ## What an instruction does to control state -/

/-- Why an instruction executed at s sets the pending bit k. -/
inductive Raises (s : State) : Instr → IntNum → Prop where
  | raise (k : IntNum) : Raises s (.raise (BitVec.ofNat 32 k.val)) k
  | syscall (code : Word) : Raises s (.syscall code) 4
  | brk (code : Word) : Raises s (.brk code) 5
  | access (i : Instr) (k : IntNum) (hk : k = 2 ∨ k = 8) : Raises s i k
  | privilege (i : Instr) (hp : Privileged i) (hk : s.kernelMode = false) : Raises s i 7

/-- The effects of an instruction on control state, each with the instructions that have it. -/
inductive ControlEffect (s : State) (i : Instr) (t : State) : Prop where
  | none (size : t.memSize = s.memSize) (same : SameControl s t)
  | raises (k : IntNum) (cause : Raises s i k) (size : t.memSize = s.memSize) (pending : t.pending = s.pending.set k true)
      (paging : SamePaging s t) (saved : SameSaved s t) (mode : t.kernelMode = s.kernelMode)
      (enabled : t.intEnabled = s.intEnabled)
  | interrupts (b : Bool) (hk : s.kernelMode = true) (hi : i = .ei ∨ i = .di)
      (ht : t = { s with intEnabled := b }.advance)
  | paging (b : Bool) (hk : s.kernelMode = true) (hi : i = .enablePaging ∨ i = .disablePaging)
      (ht : t = { s with pagingEnabled := b }.advance)
  | table (rd rt : Reg) (base num : Word) (hk : s.kernelMode = true) (hi : i = .setPtbr rd rt)
      (ht : t = { s with pageTableBase := base, numPages := num }.advance)
  | enterUser (hk : s.kernelMode = true) (hi : i = .enterUser) (ht : t = { s with kernelMode := false }.advance)
  | iret (hk : s.kernelMode = true) (hi : i = .iret) (ht : t = s.returnFromInterrupt)

theorem ControlEffect.write (rd : Reg) (v : Word) : ControlEffect s i (s.writeAndAdvance rd v) := by
  obtain ⟨-, -, ⟨size, -⟩, control⟩ := writeAndAdvance_writesOnly s rd v
  exact .none size control

theorem ControlEffect.jump (target : Word) : ControlEffect s i (s.jump target) := by
  obtain ⟨-, -, ⟨size, -⟩, control⟩ := jump_jumpsOnly s target
  exact .none size control

theorem ControlEffect.link (rd : Reg) (v target : Word) : ControlEffect s i ((s.setReg rd v).jump target) := by
  obtain ⟨-, ⟨size, -⟩, control⟩ := setReg_jump_links s rd v target
  exact .none size control

theorem ControlEffect.branch (taken : Bool) (offset : Word) : ControlEffect s i (s.branch taken offset) :=
  branch_eq_jump s taken offset ▸ .jump _

theorem ControlEffect.fault (cause : Raises s i k) : ControlEffect s i (s.raiseFault k) := by
  obtain ⟨-, -, -, ⟨size, -⟩, paging, saved, mode, enabled, -⟩ := raiseFault_faultRaised s k
  exact .raises k cause size (raiseFault_pending s k) paging saved mode enabled

theorem ControlEffect.trap (cause : Raises s i k) : ControlEffect s i (s.raiseTrap k) := by
  obtain ⟨-, -, -, ⟨size, -⟩, paging, saved, mode, enabled, -⟩ := raiseTrap_trapRaised s k
  exact .raises k cause size (raiseTrap_pending s k) paging saved mode enabled

/-- A data access fails by a memory fault or a page fault (20_memory.md R62, R63). -/
theorem dataAddress_error {va : Word} {m : Nat} {acc : AccessKind} (h : s.dataAddress va m acc = .error k) :
    k = 2 ∨ k = 8 := by
  unfold State.dataAddress at h
  split at h
  · exact .inl (Except.error.inj h).symm
  · split at h
    · next ht =>
      cases h
      exact (translate_error ht).2.symm
    · split at h
      · cases h
      · exact .inl (Except.error.inj h).symm

theorem ControlEffect.load (rt : Reg) (va : Word) (m : Nat) (f : Word → Word) : ControlEffect s i (s.load rt va m f) := by
  cases h : s.dataAddress va m .read with
  | ok a => exact load_of_ok h ▸ .write _ _
  | error k => exact load_of_error h ▸ .fault (.access i k (dataAddress_error h))

theorem ControlEffect.store (va : Word) (m : Nat) (v : Word) : ControlEffect s i (s.store va m v) := by
  cases h : s.dataAddress va m .write with
  | ok a =>
    rw [store_of_ok h]
    exact .none rfl ⟨⟨rfl, rfl, rfl⟩, ⟨⟨rfl, rfl, rfl⟩, rfl⟩, ⟨rfl, rfl⟩, rfl, rfl, rfl⟩
  | error k => exact store_of_error h ▸ .fault (.access i k (dataAddress_error h))

/-- A privileged instruction has its effect in kernel mode and raises 7 in user mode (49_system.md R223). -/
theorem ControlEffect.privileged (hp : Privileged i) (h : s.kernelMode = true → ControlEffect s i t) :
    ControlEffect s i (s.privileged t) := by
  unfold State.privileged
  split
  · next hk => exact h hk
  · next hk => exact .fault (.privilege i hp (by simpa using hk))

theorem exec_controlEffect (h : exec i s = .next t) : ControlEffect s i t := by
  cases i
  case nop | j | jr => cases h; exact .jump _
  case jal => cases h; exact .link _ _ _
  case jalr rd rs =>
    simp only [exec, execJalr] at h
    split at h
    · cases h
    · cases h; exact .link _ _ _
  case beq | bne | blez | bgtz | bltz | bgez => cases h; exact .branch _ _
  case lw | lh | lhu | lb | lbu => cases h; exact .load _ _ _ _
  case sw | sh | sb => cases h; exact .store _ _ _
  case syscall code => cases h; exact .trap (.syscall code)
  case brk code => cases h; exact .trap (.brk code)
  case raise m =>
    simp only [exec, execRaise] at h
    split at h
    · next hm =>
      cases h
      have cause : Raises s (.raise m) ⟨m.toNat, hm⟩ := by
        simpa only [BitVec.ofNat_toNat, BitVec.setWidth_eq] using Raises.raise (s := s) ⟨m.toNat, hm⟩
      exact .raises _ cause rfl rfl ⟨rfl, rfl, rfl⟩ ⟨⟨rfl, rfl, rfl⟩, rfl⟩ rfl rfl
    · cases h
  case ei => cases h; exact .privileged (by simp [Privileged]) fun hk => .interrupts true hk (.inl rfl) rfl
  case di => cases h; exact .privileged (by simp [Privileged]) fun hk => .interrupts false hk (.inr rfl) rfl
  case enablePaging => cases h; exact .privileged (by simp [Privileged]) fun hk => .paging true hk (.inl rfl) rfl
  case disablePaging => cases h; exact .privileged (by simp [Privileged]) fun hk => .paging false hk (.inr rfl) rfl
  case setPtbr => cases h; exact .privileged (by simp [Privileged]) fun hk => .table _ _ _ _ hk rfl rfl
  case enterUser => cases h; exact .privileged (by simp [Privileged]) fun hk => .enterUser hk rfl rfl
  case iret =>
    simp only [exec, execIret] at h
    split at h
    · cases h
    · cases h; exact .privileged (by simp [Privileged]) fun hk => .iret hk rfl rfl
  all_goals cases h; exact .write _ _

/-! ## The writers of control state (10_state.md R36) -/

theorem Raises.sources (h : Raises s i k) :
    i = .raise (BitVec.ofNat 32 k.val) ∨ (∃ code, i = .syscall code ∧ k = 4) ∨ (∃ code, i = .brk code ∧ k = 5) ∨
      k = 2 ∨ k = 7 ∨ k = 8 := by
  cases h with
  | raise k => exact .inl rfl
  | syscall code => exact .inr (.inl ⟨code, rfl, rfl⟩)
  | brk code => exact .inr (.inr (.inl ⟨code, rfl, rfl⟩))
  | access i k hk => exact .inr (.inr (.inr (hk.imp_right .inr)))
  | privilege => exact .inr (.inr (.inr (.inr (.inl rfl))))

/-- The one bit that an exception changes. -/
theorem getElem_pending_set_ne {v : Vector Bool 256} (h : (v.set k true)[n] ≠ v[n]) :
    n = k ∧ (v.set k true)[n] = true := by
  rw [getElem_pending_set] at h ⊢
  by_cases hnk : n = k
  · exact ⟨hnk, if_pos hnk⟩
  · exact absurd (if_neg hnk) h

/-- Settles O23: each effect on control state leaves all fields but those of its own row as they are. -/
theorem controlStateWriters : Obligations.ControlStateWriters := by
  intro i s t h
  cases exec_controlEffect h with
  | none size same =>
    obtain ⟨⟨paging, base, num⟩, ⟨context, out⟩, -, mode, enabled, pending⟩ := same
    exact ⟨⟨context, size⟩, (absurd out ·), (absurd mode ·), (absurd paging ·), (·.elim (absurd base) (absurd num)),
      (absurd enabled ·), fun n h => absurd (by rw [pending]) h⟩
  | raises k cause size pending paging saved mode enabled =>
    obtain ⟨context, out⟩ := saved
    obtain ⟨paging, base, num⟩ := paging
    refine ⟨⟨context, size⟩, (absurd out ·), (absurd mode ·), (absurd paging ·), (·.elim (absurd base) (absurd num)),
      (absurd enabled ·), fun n h => ?_⟩
    rw [pending] at h ⊢
    obtain ⟨rfl, set⟩ := getElem_pending_set_ne h
    exact ⟨set, cause.sources⟩
  | interrupts b hk hi ht =>
    subst ht
    exact ⟨⟨⟨rfl, rfl, rfl⟩, rfl⟩, (absurd rfl ·), (absurd rfl ·), (absurd rfl ·), (·.elim (absurd rfl) (absurd rfl)),
      fun _ => ⟨hk, hi.imp_right .inl⟩, fun _ => (absurd rfl ·)⟩
  | paging b hk hi ht =>
    subst ht
    exact ⟨⟨⟨rfl, rfl, rfl⟩, rfl⟩, (absurd rfl ·), (absurd rfl ·), fun _ => ⟨hk, hi⟩, (·.elim (absurd rfl) (absurd rfl)),
      (absurd rfl ·), fun _ => (absurd rfl ·)⟩
  | table rd rt base num hk hi ht =>
    subst ht
    exact ⟨⟨⟨rfl, rfl, rfl⟩, rfl⟩, (absurd rfl ·), (absurd rfl ·), (absurd rfl ·), fun _ => ⟨hk, rd, rt, hi⟩,
      (absurd rfl ·), fun _ => (absurd rfl ·)⟩
  | enterUser hk hi ht =>
    subst ht
    exact ⟨⟨⟨rfl, rfl, rfl⟩, rfl⟩, (absurd rfl ·), fun _ => ⟨hk, .inl hi⟩, (absurd rfl ·), (·.elim (absurd rfl) (absurd rfl)),
      (absurd rfl ·), fun _ => (absurd rfl ·)⟩
  | iret hk hi ht =>
    rcases returnFromInterrupt_cases (s := s) with ⟨-, e⟩ | ⟨-, e⟩
    all_goals subst ht; rw [e]
    · exact ⟨⟨⟨rfl, rfl, rfl⟩, rfl⟩, fun _ => ⟨hk, hi⟩, fun h => ⟨hk, .inr ⟨hi, by simpa [hk] using h⟩⟩, (absurd rfl ·),
        (·.elim (absurd rfl) (absurd rfl)), fun _ => ⟨hk, .inr (.inr hi)⟩, fun _ => (absurd rfl ·)⟩
    · exact ⟨⟨⟨rfl, rfl, rfl⟩, rfl⟩, (absurd rfl ·), (absurd rfl ·), (absurd rfl ·), (·.elim (absurd rfl) (absurd rfl)),
        (absurd rfl ·), fun _ => (absurd rfl ·)⟩

/-! ## Privilege (60_exceptions.md R262) -/

/-- The privileged instructions are those that encode with one of the seven opcodes. -/
theorem privileged_iff_opcode (i : Instr) :
    Privileged i ↔ (encodeFields i).opcode.toNat ∈ [0xF2, 0xF3, 0xF4, 0xF7, 0xF8, 0xF9, 0xFB] := by
  cases i
  all_goals simp [Privileged, encodeFields]

theorem privileged_of_user (hk : s.kernelMode = false) : s.privileged t = s.raiseFault 7 := if_neg (by simp [hk])

/-- A privileged instruction in user mode only raises 7. -/
theorem exec_privileged_of_user (hp : Privileged i) (hk : s.kernelMode = false) : exec i s = .next (s.raiseFault 7) := by
  rcases hp with rfl | rfl | rfl | rfl | rfl | rfl | ⟨rd, rt, rfl⟩
  case inr.inr.inl =>
    rw [exec, execIret, if_neg (by simp [hk]), privileged_of_user hk]
  all_goals exact congrArg _ (privileged_of_user hk)

/-- Bit 7 is set by RAISE 7 and by a violation alone. -/
theorem Raises.ne_seven (h : Raises s i k) (hp : ¬ Privileged i) (hi : i ≠ .raise 7) : k ≠ 7 := by
  rintro rfl
  cases h with
  | raise => exact hi rfl
  | access _ _ hk => exact absurd hk (by decide)
  | privilege _ hp' => exact hp hp'

/-- Settles O19: an instruction decodes from its own opcode; in user mode a privileged one is its fault, and no effect of
another one sets bit 7. -/
theorem privilegedInUserModeFaults : Obligations.PrivilegedInUserModeFaults := by
  refine ⟨fun f i h => ?opcodes, fun i s hp hk => ⟨_, exec_privileged_of_user hp hk, raiseFault_faultRaised s 7⟩,
    fun i s t hp hi hk h => ?others⟩
  case opcodes => rw [privileged_iff_opcode, opcode_of_decodeFields h]
  case others =>
    cases exec_controlEffect h with
    | none size same =>
      obtain ⟨-, -, -, -, -, pending⟩ := same
      rw [pending]
    | raises k cause size pending => rw [pending, getElem_pending_set, if_neg (cause.ne_seven hp hi).symm]
    | interrupts _ hk' | paging _ hk' | table _ _ _ _ hk' | enterUser hk' | iret hk' => simp [hk] at hk'

/-! ## The control instructions in kernel mode (49_system.md R213 to R221) -/

theorem completes_privileged {P : State → Prop} (h : exec i s = .next (s.privileged t)) (hk : s.kernelMode = true)
    (ht : P t) : Completes i s P := ⟨t, h.trans (congrArg _ (if_pos hk)), ht⟩

/-- An update that touches none of these fields keeps them. -/
theorem sameBesidesFlags_of_eq (regs : t.regs = s.regs) (mem : t.mem = s.mem) (size : t.memSize = s.memSize)
    (saved : SameSaved s t) (running : SameRunning s t) (pending : t.pending = s.pending) : SameBesidesFlags s t :=
  ⟨fun r => getReg_congr r regs, ⟨size, fun a => by rw [mem]⟩, saved, running, pending⟩

/-- Settles O20: in kernel mode each is its update of the flag. -/
theorem eiAndDiWriteTheFlag : Obligations.EiAndDiWriteTheFlag := by
  refine fun s hk => ⟨completes_privileged rfl hk ?_, completes_privileged rfl hk ?_⟩
  all_goals
    refine ⟨rfl, rfl, ?_, ⟨rfl, rfl, rfl⟩, hk⟩
    exact sameBesidesFlags_of_eq rfl rfl rfl ⟨⟨rfl, rfl, rfl⟩, rfl⟩ ⟨rfl, rfl⟩ rfl

/-- Settles O21: in kernel mode each is its update of the paging registers or the mode. -/
theorem pagingAndModeControl : Obligations.PagingAndModeControl := by
  have rest {s t : State} (h : t = { s with pc := t.pc, kernelMode := t.kernelMode, pagingEnabled := t.pagingEnabled,
                                            pageTableBase := t.pageTableBase, numPages := t.numPages }) :
      SameBesidesFlags s t := by
    rw [h]
    exact sameBesidesFlags_of_eq rfl rfl rfl ⟨⟨rfl, rfl, rfl⟩, rfl⟩ ⟨rfl, rfl⟩ rfl
  exact fun s rd rt hk => ⟨completes_privileged rfl hk ⟨rfl, rfl, rfl, rfl, rest rfl, rfl, hk⟩,
    completes_privileged rfl hk ⟨rfl, rfl, rfl, rfl, rest rfl, rfl, hk⟩,
    completes_privileged rfl hk ⟨rfl, rfl, rfl, rfl, rest rfl, rfl, hk⟩,
    completes_privileged rfl hk ⟨rfl, ⟨rfl, rfl, rfl⟩, rfl, rest rfl, rfl⟩⟩

/-! ## Modes (60_exceptions.md R261) -/

theorem dispatch_modes (s : State) (n : IntNum) :
    (s.dispatch n).kernelMode = true ∧ (s.dispatch n).savedMode = s.kernelMode := by
  rcases dispatch_cases (s := s) n with ⟨-, ⟨pc, e⟩ | ⟨reason, e⟩⟩ | ⟨-, e⟩ <;> rw [e]
  · exact ⟨by simp, by simp⟩
  · exact ⟨by simp, by simp⟩
  · exact ⟨rfl, rfl⟩

/-- A step that ends in another mode than that after its interrupt check executed an instruction that changes the mode. -/
theorem step_changes_mode (h : step s = .next t) (hne : t.kernelMode ≠ s.interruptCheck.kernelMode) :
    ∃ bs i, s.interruptCheck.fetch = .bytes bs ∧ decode bs = .ok i ∧ s.interruptCheck.kernelMode = true ∧
      (i = .enterUser ∨ i = .iret ∧ s.interruptCheck.savedMode = false) := by
  obtain ⟨-, -, ⟨-, rfl⟩ | ⟨-, ⟨reason, -, rfl⟩ | ⟨k, rfl⟩ | ⟨bs, i, hf, hd, hexec⟩⟩⟩ := step_cases h
  · exact absurd rfl hne
  · exact absurd rfl hne
  · exact absurd (raiseFault_kernelMode _ k) hne
  · obtain ⟨-, -, mode, -⟩ := controlStateWriters i _ t hexec
    obtain ⟨kernel, writer⟩ := mode hne
    exact ⟨bs, i, hf, hd, kernel, writer⟩

/-- Settles O22: the check itself only ever enters kernel mode, and after it only ENTER_USER and IRET change the mode, from
kernel mode. -/
theorem modeTransitions : Obligations.ModeTransitions := by
  refine ⟨dispatch_modes, fun s t h => ⟨fun hs ht hn => ?entered, fun hs ht => ?left⟩⟩
  case entered =>
    have same := interruptCheck_of_notDue hn
    obtain ⟨-, -, -, -, kernel, -⟩ := step_changes_mode h (by simp [same, hs, ht])
    simp [same, hs] at kernel
  case left =>
    have kernel : s.interruptCheck.kernelMode = true := by
      rcases interruptCheck_cases (s := s) with e | ⟨-, n, -, e⟩ <;> rw [e]
      · exact hs
      · exact (dispatch_modes s n).1
    obtain ⟨bs, i, hf, hd, -, rfl | ⟨rfl, saved⟩⟩ := step_changes_mode h (by simp [kernel, ht])
    · exact ⟨bs, hf, .inl hd⟩
    · exact ⟨bs, hf, .inr ⟨hd, saved⟩⟩

/-! ## The one saved context (60_exceptions.md R257) -/

/-- No instruction answers that a dispatch would nest: the cycle alone does. -/
theorem exec_ne_nestedDispatch : exec i s ≠ .refused .nestedDispatch := by
  intro h
  cases i
  case jalr | raise | iret =>
    simp only [exec, execJalr, execRaise, execIret] at h
    split at h <;> cases h
  all_goals cases h

theorem fetchExecute_ne_nestedDispatch : s.fetchExecute ≠ .refused .nestedDispatch := by
  intro h
  unfold State.fetchExecute at h
  split at h
  · cases h
  · cases h
  · unfold State.executeBytes at h
    split at h
    · exact exec_ne_nestedDispatch h
    · unfold State.onReject at h
      split at h
      · cases h
      · split at h <;> cases h
      · cases h

theorem step_eq_nestedDispatch : step s = .refused .nestedDispatch ↔ s.running = true ∧ s.nests = true := by
  refine ⟨fun h => ?_, fun ⟨hr, hn⟩ => (step_of_running hr).trans (if_pos hn)⟩
  unfold step State.stepOrStopped State.cycle at h
  split at h
  · next hr =>
    split at h
    · next hn => exact ⟨hr, hn⟩
    · split at h
      · exact absurd h fetchExecute_ne_nestedDispatch
      · cases h
  · cases h

/-- With a dispatch outstanding, a cycle that does not nest dispatches nothing. -/
theorem notDue_of_not_nests (ho : s.outstanding = true) (hn : s.nests = false) : NotDue s := by
  cases hi : s.intEnabled with
  | false => exact .inl hi
  | true =>
    refine .inr fun n => Bool.eq_false_iff.2 fun hp => ?_
    exact absurd (nests_iff.2 ⟨ho, hi, n, hp⟩) (by simp [hn])

/-- Settles O59: a step with a dispatch outstanding that is not refused dispatches nothing, and only IRET changes the mark. -/
theorem nestedDispatchIsRefused : Obligations.NestedDispatchIsRefused := by
  refine ⟨fun s => by rw [step_eq_nestedDispatch, nests_iff], fun s t ho h => ?_⟩
  obtain ⟨-, hn, hcases⟩ := step_cases h
  rw [interruptCheck_of_notDue (notDue_of_not_nests ho hn)] at hcases
  rcases hcases with ⟨-, rfl⟩ | ⟨-, ⟨reason, -, rfl⟩ | ⟨k, rfl⟩ | ⟨bs, i, hf, hd, hexec⟩⟩
  · exact ⟨⟨rfl, rfl, rfl⟩, fun h => by simp [ho] at h⟩
  · exact ⟨⟨rfl, rfl, rfl⟩, fun h => by simp [ho] at h⟩
  · exact ⟨⟨by simp, by simp, by simp⟩, fun h => by simp [ho] at h⟩
  · obtain ⟨⟨context, -⟩, mark, -⟩ := controlStateWriters i s t hexec
    refine ⟨context, fun h => ⟨bs, hf, ?_⟩⟩
    obtain ⟨-, rfl⟩ := mark (by simp [ho, h])
    exact hd

end Sys2Proof.Machine

/-! SUPPORT. Isolation: which bytes user code with paging on can change, and which it can depend on (20_memory.md R65 to R73;
60_exceptions.md, section 8). -/

namespace Sys2Proof.Machine

open Sys2Proof.Safety Sys2Proof.Certificates

variable {s t : State} {i : Instr} {va p : Word} {acc : AccessKind} {n a k : Nat} {m : Memory}

/-! ## The bytes of a permitted access -/

/-- Every byte of an aligned access lies in the physical page of the entry that translates its address (20_memory.md R73). -/
theorem frame_of_translate (ht : s.translates = true) (h : s.translate va acc = .ok p)
    (hn : n = 1 ∨ n = 2 ∨ n = 4 ∨ n = 8) (hal : va.toNat % n = 0) (hk : k < n) :
    (p.toNat + k) / 4096 = pageEntry s (va.toNat / 4096) / 4096 := by
  have inPage := aligned_in_page hn hal hk
  have address := translate_ok_toNat ht h
  omega

theorem userReadable_of_translate (ht : s.translates = true) (h : s.translate va acc = .ok p)
    (hn : n = 1 ∨ n = 2 ∨ n = 4 ∨ n = 8) (hal : va.toNat % n = 0) (hk : k < n) : UserReadable s (p.toNat + k) :=
  ⟨_, (translate_ok_paged ht h).1, frame_of_translate ht h hn hal hk⟩

/-! ## Stores (20_memory.md R69) -/

@[simp] theorem returnFromInterrupt_mem : s.returnFromInterrupt.mem = s.mem := by
  rcases returnFromInterrupt_cases (s := s) with ⟨-, h⟩ | ⟨-, h⟩
  · rw [h]
  · rw [h, stop_mem]

/-- An instruction changes a byte only as one of those that a store writes. -/
theorem Effect.changes_byte (e : Effect s t) (h : t.mem.read a ≠ s.mem.read a) :
    ∃ va n pa, s.dataAddress va n .write = .ok pa ∧ (n = 1 ∨ n = 2 ∨ n = 4) ∧ pa ≤ a ∧ a < pa + n := by
  cases e with
  | store va n pa v hd hn =>
    refine ⟨va, n, pa, hd, hn, by_contra fun hout => h ?_⟩
    rw [advance_mem, read_physWrite, if_neg hout]
  | _ => exact absurd (by simp) h

/-- Settles O49: the byte is one of a store's, whose address translated for a write. -/
theorem userStoresStayInWritablePages : Obligations.UserStoresStayInWritablePages := by
  intro i s t a hk hp hexec hne
  have ht := translates_of_userPaging hk hp
  obtain ⟨va, n, pa, hd, hn, hle, hlt⟩ := (exec_effect hexec).changes_byte hne
  obtain ⟨hal, p, htr, -, rfl⟩ := dataAddress_ok.1 hd
  obtain ⟨huser, hperm, -⟩ := translate_ok_paged ht htr
  refine ⟨va.toNat / 4096, huser, ?_, ?_⟩
  · rw [← pte_getLsbD]
    exact ((ptePermits_write _).1 hperm).2
  · have frame := frame_of_translate (k := a - p.toNat) ht htr (by omega) hal (by omega)
    rwa [Nat.add_sub_cancel' hle] at frame

/-! ## States that differ in bytes -/

/-- The state with other bytes. -/
def State.withMem (s : State) (m : Memory) : State := { s with mem := m }

/-- The memory holds what s holds in the page table's entries and in the pages that user mode may read. -/
def AgreesForUser (s : State) (m : Memory) : Prop :=
  (∀ page, page < s.numPages.toNat → EntryInMemory s page → ∀ k, k < 4 →
    m.read (s.pageTableBase.toNat + 4 * page + k) = s.mem.read (s.pageTableBase.toNat + 4 * page + k)) ∧
  ∀ a, UserReadable s a → m.read a = s.mem.read a

theorem physRead_withMem (h : ∀ k, k < n → m.read (a + k) = s.mem.read (a + k)) :
    (s.withMem m).physRead a n = s.physRead a n := by
  have bytes : m.readBytes a n = s.mem.readBytes a n := readBytes_congr fun b hle hlt => by
    have := h (b - a) (by omega)
    rwa [Nat.add_sub_cancel' hle] at this
  rw [State.physRead, State.physRead, ← bytes]
  rfl

theorem translate_withMem (h : AgreesForUser s m) (ht : s.translates = true) :
    (s.withMem m).translate va acc = s.translate va acc := by
  rcases Nat.lt_or_ge (va.toNat / 4096) s.numPages.toNat with hn | hn
  · by_cases he : EntryInMemory s (va.toNat / 4096)
    · have entry : (s.withMem m).pte va = s.pte va := physRead_withMem fun k hk => by
        rw [State.pteAddress, pageNumber_toNat]
        exact h.1 _ hn he k hk
      rw [translate_of_entryInMemory ht hn he, ← entry]
      exact translate_of_entryInMemory (s := s.withMem m) ht hn he
    · rw [translate_of_entry_outside ht hn he]
      exact translate_of_entry_outside (s := s.withMem m) ht hn he
  · rw [translate_of_numPages_le ht hn]
    exact translate_of_numPages_le (s := s.withMem m) ht hn

theorem dataAddress_withMem (h : AgreesForUser s m) (ht : s.translates = true) :
    (s.withMem m).dataAddress va n acc = s.dataAddress va n acc := by
  rw [State.dataAddress, State.dataAddress, translate_withMem h ht]
  rfl

/-- A fetch reads only the entry and a page that user mode may read. -/
theorem fetch_withMem (h : AgreesForUser s m) (ht : s.translates = true) : (s.withMem m).fetch = s.fetch := by
  have walk : (s.withMem m).translate (s.withMem m).pc .exec = s.translate s.pc .exec := translate_withMem h ht
  by_cases hpc : s.pc.toNat % 8 = 0
  · cases htr : s.translate s.pc .exec with
    | error k => rw [fetch_of_error hpc htr, fetch_of_error (s := s.withMem m) hpc (walk.trans htr)]
    | ok p =>
      rcases Nat.lt_or_ge s.memSize.toNat (p.toNat + 8) with hb | hb
      · rw [fetch_of_outOfBounds hpc htr hb, fetch_of_outOfBounds (s := s.withMem m) hpc (walk.trans htr) hb]
      · have bytes : m.readBytes p.toNat 8 = s.mem.readBytes p.toNat 8 := readBytes_congr fun b hle hlt => by
          have readable := userReadable_of_translate (k := b - p.toNat) ht htr (by simp) hpc (by omega)
          rw [Nat.add_sub_cancel' hle] at readable
          exact h.2 b readable
        rw [fetch_bytes.2 ⟨hpc, p, htr, hb, rfl⟩]
        exact fetch_bytes.2 ⟨hpc, p, walk.trans htr, hb, bytes.symm⟩
  · rw [fetch_of_misaligned hpc, fetch_of_misaligned (s := s.withMem m) hpc]

/-! ## The operations on states that differ in bytes -/

section
variable (s : State) (m : Memory)

theorem setReg_withMem (r : Reg) (v : Word) : (s.withMem m).setReg r v = (s.setReg r v).withMem m := by
  unfold State.setReg
  split <;> rfl

theorem writeAndAdvance_withMem (r : Reg) (v : Word) :
    (s.withMem m).writeAndAdvance r v = (s.writeAndAdvance r v).withMem m := congrArg State.advance (setReg_withMem s m r v)

theorem link_withMem (r : Reg) (v target : Word) :
    ((s.withMem m).setReg r v).jump target = ((s.setReg r v).jump target).withMem m :=
  congrArg (State.jump · target) (setReg_withMem s m r v)

theorem branch_withMem (taken : Bool) (offset : Word) :
    (s.withMem m).branch taken offset = (s.branch taken offset).withMem m := by
  cases taken <;> rfl

theorem deliverable_withMem (k : IntNum) : (s.withMem m).deliverable k = (s.deliverable k).withMem m := by
  have same : (s.withMem m).intEnabled = s.intEnabled := rfl
  rw [State.deliverable, State.deliverable, same]
  split <;> rfl

theorem raiseFault_withMem (k : IntNum) : (s.withMem m).raiseFault k = (s.raiseFault k).withMem m :=
  deliverable_withMem (s.pend k) m k

theorem raiseTrap_withMem (k : IntNum) : (s.withMem m).raiseTrap k = (s.raiseTrap k).withMem m :=
  deliverable_withMem (s.pend k).advance m k

end

section
variable (h : AgreesForUser s m) (ht : s.translates = true)
include h ht

/-- A load reads only bytes that user mode may read. -/
theorem load_withMem (rt : Reg) (va : Word) (n : Nat) (f : Word → Word) (hn : n = 1 ∨ n = 2 ∨ n = 4) :
    (s.withMem m).load rt va n f = (s.load rt va n f).withMem m := by
  have address : (s.withMem m).dataAddress va n .read = s.dataAddress va n .read := dataAddress_withMem h ht
  cases hd : s.dataAddress va n .read with
  | error k => rw [load_of_error hd, load_of_error (address.trans hd), raiseFault_withMem]
  | ok a =>
    obtain ⟨hal, p, htr, -, rfl⟩ := dataAddress_ok.1 hd
    have value : (s.withMem m).physRead p.toNat n = s.physRead p.toNat n := physRead_withMem fun k hk =>
      h.2 _ (userReadable_of_translate ht htr (by omega) hal hk)
    rw [load_of_ok hd, load_of_ok (address.trans hd), value, writeAndAdvance_withMem]

theorem store_withMem (va : Word) (n : Nat) (v : Word) :
    ∃ m', (s.withMem m).store va n v = (s.store va n v).withMem m' := by
  have address : (s.withMem m).dataAddress va n .write = s.dataAddress va n .write := dataAddress_withMem h ht
  cases hd : s.dataAddress va n .write with
  | error k => exact ⟨m, by rw [store_of_error hd, store_of_error (address.trans hd), raiseFault_withMem]⟩
  | ok a => exact ⟨_, by rw [store_of_ok hd, store_of_ok (address.trans hd)]; rfl⟩

end

/-- A privileged instruction in user mode raises 7 whatever the bytes are. -/
theorem exec_privileged_withMem (hp : Privileged i) (hk : s.kernelMode = false) (hexec : exec i s = .next t) :
    ∃ m', exec i (s.withMem m) = .next (t.withMem m') := by
  cases (exec_privileged_of_user hp hk).symm.trans hexec
  exact ⟨m, (exec_privileged_of_user (s := s.withMem m) hp hk).trans (congrArg _ (raiseFault_withMem s m 7))⟩

/-- An instruction in user mode with paging on does the same, up to bytes, on states that agree for user mode. -/
theorem exec_withMem (h : AgreesForUser s m) (hk : s.kernelMode = false) (ht : s.translates = true)
    (hexec : exec i s = .next t) : ∃ m', exec i (s.withMem m) = .next (t.withMem m') := by
  cases i
  case nop | j | jr => cases hexec; exact ⟨m, rfl⟩
  case jal target =>
    cases hexec
    exact ⟨m, congrArg _ (link_withMem s m 31 s.link target)⟩
  case jalr rd rs =>
    simp only [exec, execJalr] at hexec ⊢
    split at hexec
    · cases hexec
    · next hne =>
      cases hexec
      rw [if_neg hne]
      exact ⟨m, congrArg _ (link_withMem s m rd s.link (s.getReg rs))⟩
  case beq | bne | blez | bgtz | bltz | bgez => cases hexec; exact ⟨m, congrArg _ (branch_withMem s m _ _)⟩
  case lw | lh | lhu | lb | lbu => cases hexec; exact ⟨m, congrArg _ (load_withMem h ht _ _ _ _ (by simp))⟩
  case sw | sh | sb =>
    cases hexec
    obtain ⟨m', e⟩ := store_withMem h ht _ _ _
    exact ⟨m', congrArg _ e⟩
  case syscall | brk => cases hexec; exact ⟨m, congrArg _ (raiseTrap_withMem s m _)⟩
  case raise num =>
    simp only [exec, execRaise] at hexec ⊢
    split at hexec
    · next hn =>
      cases hexec
      exact ⟨m, by rw [dif_pos hn]; rfl⟩
    · cases hexec
  case ei | di | iret | enablePaging | disablePaging | setPtbr | enterUser =>
    exact exec_privileged_withMem (by simp [Privileged]) hk hexec
  all_goals cases hexec; exact ⟨m, congrArg _ (writeAndAdvance_withMem s m _ _)⟩

/-- The bytes of a fetch do the same, up to bytes, on states that agree for user mode. -/
theorem executeBytes_withMem {bs : List Byte} (h : AgreesForUser s m) (hk : s.kernelMode = false)
    (ht : s.translates = true) (hexec : s.executeBytes bs = .next t) :
    ∃ m', (s.withMem m).executeBytes bs = .next (t.withMem m') := by
  unfold State.executeBytes at hexec ⊢
  cases hd : decode bs with
  | ok i =>
    rw [hd] at hexec
    exact exec_withMem h hk ht hexec
  | error e =>
    rw [hd] at hexec
    cases e with
    | length => cases hexec
    | reservedOpcode op =>
      cases hexec
      exact ⟨m, congrArg _ (raiseFault_withMem s m _)⟩
    | registerField op b =>
      simp only [State.onReject] at hexec ⊢
      split at hexec
      · next hc =>
        cases hexec
        exact ⟨m, (if_pos hc).trans (congrArg _ (raiseFault_withMem s m _))⟩
      · cases hexec

/-- Settles O50: both states fetch the same, and what they execute reads only bytes in which they agree. -/
theorem userStepsReadOnlyTheirPages : Obligations.UserStepsReadOnlyTheirPages := by
  intro s u t hr hn hk hp hsame hentries hpages hstep
  have ht := translates_of_userPaging hk hp
  obtain ⟨m, rfl⟩ : ∃ m, u = s.withMem m := ⟨u.mem, hsame⟩
  have h : AgreesForUser s m := ⟨hentries, hpages⟩
  suffices ∃ m', step (s.withMem m) = .next (t.withMem m') from this.elim fun m' e => ⟨_, e, rfl⟩
  rw [step_of_notDue hr hn, State.fetchExecute] at hstep
  rw [step_of_notDue (s := s.withMem m) hr hn, State.fetchExecute, fetch_withMem h ht]
  cases hf : s.fetch with
  | stop reason =>
    rw [hf] at hstep
    cases hstep
    exact ⟨m, rfl⟩
  | fault k =>
    rw [hf] at hstep
    cases hstep
    exact ⟨m, congrArg _ (raiseFault_withMem s m k)⟩
  | bytes bs =>
    rw [hf] at hstep
    exact executeBytes_withMem h hk ht hstep

end Sys2Proof.Machine
